-- ==== Sys2Proof/Word.lean ====
section
/-! DEFINITION. The word types of SWARQ16: what the spec treats as bits. -/

namespace Sys2Proof

/-- One byte of a datagram or of a byte memory (R14, R60). -/
abbrev Byte := BitVec 8

/-- A 16-bit field or checksum (R7). -/
abbrev Half := BitVec 16

/-- A host register, a command word, an ack token (R32, R160, R165). -/
abbrev Word := BitVec 32

/-- A 64-bit tick count (R44, R46 to R48). -/
abbrev DWord := BitVec 64

/-- A host byte address, 18 bits (R100). -/
abbrev HostAddr := BitVec 18

/-- A datagram: the bytes in wire order, byte 0 first (R14, R18). -/
abbrev Datagram := List Byte

end Sys2Proof
end

