-- ==== Sys2Proof/Syntax.lean ====
section
/-! DEFINITION. The commands of SWARQ16: one constructor per row of the command map (R166). No command carries an operand
(R168). -/

namespace Sys2Proof

/-- The eleven commands (R166). -/
inductive Instr where
  /-- NOP, R440. -/
  | nop
  /-- TX_START, R300. -/
  | txStart
  /-- TX_CLEAR, R330. -/
  | txClear
  /-- RX_START, R370. -/
  | rxStart
  /-- RX_CLEAR, R371. -/
  | rxClear
  /-- CK_COMPUTE, R211. -/
  | ckCompute
  /-- CK_VERIFY, R221. -/
  | ckVerify
  /-- SEG_DECODE, R231. -/
  | segDecode
  /-- SEG_ENCODE, R241. -/
  | segEncode
  /-- RTT_INIT, R260. -/
  | rttInit
  /-- RTT_SAMPLE, R261. -/
  | rttSample
  deriving DecidableEq, Repr

end Sys2Proof
end

