-- ==== Sys2Proof/Machine/Event.lean ====
section
/-! DEFINITION. What the environment presents to the block: the six kinds of step (R9), the ports that carry them (R150) and
the order in which events of one clock cycle are taken (R476). -/

namespace Sys2Proof.Machine

/-- One access on the HOST port (R150). The size is any number: a size other than 1, 2 and 4 is answered with a bus error
(R105). -/
inductive HostAccess where
  | read (addr : HostAddr) (size : Nat)
  | write (addr : HostAddr) (size : Nat) (data : Word)
  deriving DecidableEq, Repr

/-- The six kinds of step (R9): a host read or write, a TICK, a datagram on DRX, a token on ARX, a reset. -/
inductive Event where
  | host (access : HostAccess)
  | tick
  | drx (datagram : Datagram)
  | arx (token : Word)
  | rst
  deriving DecidableEq, Repr

/-- What the HOST port answers (R107, R150): the value read, plain completion of a write, or an error response (R465). -/
inductive HostResponse where
  | data (value : Word)
  | written
  | busError
  deriving DecidableEq, Repr

/-- One record on the LOG port (R161, R162). -/
structure LogRecord where
  kind : Byte
  timestamp : DWord
  seq : Word
  ack : Word
  fin : Byte
  aux : Word
  deriving DecidableEq, Repr

/-- What a chip may be presented with in one clock cycle: at most one event of each kind (R476). -/
structure Cycle where
  rst : Bool
  arx : Option Word
  drx : Option Datagram
  host : Option HostAccess
  tick : Bool
  deriving DecidableEq, Repr

/-- The events of one cycle in the order the chip takes them, each a step of its own (R476): RST, which discards the others;
then the ARX token, the DRX datagram, the host access, the TICK. -/
def Cycle.events (c : Cycle) : List Event :=
  bif c.rst then [.rst]
  else (c.arx.map Event.arx).toList ++ (c.drx.map Event.drx).toList ++ (c.host.map Event.host).toList ++
    (bif c.tick then [Event.tick] else [])

end Sys2Proof.Machine
end

