-- ==== Sys2Proof/Config.lean ====
section
/-! DEFINITION. What an implementation fixes (the parameters of R7, R8 and I13) and the free values the spec leaves open. -/

namespace Sys2Proof

/-- The five byte memories (R60). -/
inductive Space where
  | ckBuf
  | txSegbuf
  | rxSegbuf
  | txMem
  | rxMem
  deriving DecidableEq, Repr

namespace Config

/-- MSS, 556 bytes (R7). -/
abbrev mss : Nat := 556

/-- HEADER_SIZE, 20 bytes (R7). -/
abbrev headerSize : Nat := 20

/-- PACKET_SIZE, 576 bytes (R7). -/
abbrev packetSize : Nat := 576

/-- The OPEN parameters a build fixes (R8, R482, D43, D45). They are plain data, so that one model covers every size and a test can
choose one; no step changes them (log entry 4). -/
structure Build where
  /-- TX_MEM_SIZE. -/
  txMemSize : Nat
  /-- RX_MEM_SIZE. -/
  rxMemSize : Nat
  /-- ACK_CHANNEL_LOSSY (R482, I13): whether the ack channel from the peer's RX to ARX may lose tokens. -/
  ackChannelLossy : Bool := false
  deriving DecidableEq, Repr

/-- The defaults of R8 and I13. -/
def Build.default : Build := { txMemSize := 65536, rxMemSize := 65536, ackChannelLossy := false }

/-- The draw a reset leaves in a memory byte: a free value (R60, R520, I2). The first argument numbers the reset, so each
reset draws anew; the same byte read twice between two resets gives the same draw. It has no body: nothing can be proved of
its value (log entry 2). -/
opaque drawByte : Nat → Space → Nat → Byte

/-- What the environment presents once the events placed in State.inputs are used up: at each turn some event, or none (R9, R10,
I8). The argument counts the turns, so a run of the machine goes on for ever under events that nothing constrains. It has no
body (log entry 23). -/
opaque environment : Nat → Option Machine.Event

end Config

end Sys2Proof
end

