-- ==== Sys2Proof/WellFormed.lean ====
section
/-! DEFINITION. Which commands, build parameters and port events are well formed. A machine step is total on all of them; these
checks say which ones the spec's ports and parameters admit. -/

namespace Sys2Proof

/-- A command has no operand, so every command is well formed (R168). -/
def Instr.wf : Instr → Bool
  | .nop | .txStart | .txClear | .rxStart | .rxClear => true
  | .ckCompute | .ckVerify | .segDecode | .segEncode => true
  | .rttInit | .rttSample => true

/-- Both memory sizes are in 1..65536 (R8). -/
def Config.Build.wf (b : Config.Build) : Bool :=
  decide (1 ≤ b.txMemSize) && decide (b.txMemSize ≤ 65536) && decide (1 ≤ b.rxMemSize) && decide (b.rxMemSize ≤ 65536)

/-- The HOST port carries sizes 1, 2 and 4 (R150). -/
def Machine.HostAccess.wf : Machine.HostAccess → Bool
  | .read _ n => n == 1 || n == 2 || n == 4
  | .write _ n _ => n == 1 || n == 2 || n == 4

/-- A datagram on DRX has 0 to 65535 bytes (R119, R150). -/
def Machine.Event.wf : Machine.Event → Bool
  | .host h => h.wf
  | .tick => true
  | .drx d => decide (d.length ≤ 65535)
  | .arx _ => true
  | .rst => true

end Sys2Proof
end

