-- ==== Sys2Proof/Decode.lean ====
section
/-! DEFINITION. The command word (R165 to R167): a decoder, total on every 32-bit word, that rejects by name, and an encoder
written from the same command map. -/

namespace Sys2Proof

/-- Why a word is no command (R167). Both reasons are reported to the host as the one cause ILLEGAL (R463). -/
inductive DecodeError where
  /-- W[31:8] is not 0. -/
  | upperBitsSet
  /-- W[7:0] is an OPCODE outside the command map. -/
  | unknownOpcode
  deriving DecidableEq, Repr

/-- The OPCODE column of the command map, W[7:0] (R166). -/
def opcodeTable : List (Byte × Instr) :=
  ([(0x00, .nop), (0x01, .txStart), (0x02, .txClear), (0x03, .rxStart), (0x04, .rxClear)] : List (Byte × Instr)) ++
  ([(0x10, .ckCompute), (0x11, .ckVerify), (0x12, .segDecode), (0x13, .segEncode)] : List (Byte × Instr)) ++
  ([(0x20, .rttInit), (0x21, .rttSample)] : List (Byte × Instr))

/-- W[7:0], the OPCODE (R165). -/
def opcodeOf (w : Word) : Byte := w.extractLsb' 0 8

/-- Decode a command word. The word is matched whole: W[31:8] must be 0 and W[7:0] a row of the map (R165, R166, R430). -/
def decode (w : Word) : Except DecodeError Instr :=
  if w.extractLsb' 8 24 ≠ 0 then .error .upperBitsSet
  else match opcodeTable.find? (fun row => row.1 == opcodeOf w) with
    | some row => .ok row.2
    | none => .error .unknownOpcode

/-- The word of a command (R166). -/
def encode : Instr → Word
  | .nop => 0x00000000
  | .txStart => 0x00000001
  | .txClear => 0x00000002
  | .rxStart => 0x00000003
  | .rxClear => 0x00000004
  | .ckCompute => 0x00000010
  | .ckVerify => 0x00000011
  | .segDecode => 0x00000012
  | .segEncode => 0x00000013
  | .rttInit => 0x00000020
  | .rttSample => 0x00000021

/-- The command word whose bits are w, with every bit at or above nbits 0. -/
def tableWord (nbits w : Nat) : Word := BitVec.ofNat 32 (w % 2 ^ nbits)

/-- What the decoder reads from a word of the opcode table. A command is one 32-bit value (R165), so no byte order arises. -/
def decodeTableWord (nbits w : Nat) : Option Instr := (decode (tableWord nbits w)).toOption

end Sys2Proof
end

