-- ==== Sys2Proof/Machine/State.lean ====
section
/-! DEFINITION. The state of SWARQ16 as plain data (10_state.md), its value after reset (R66), and the reasons a step can
stop. -/

namespace Sys2Proof.Machine

/-- state_TX (R42). -/
inductive TxState where
  | building
  | sending
  | done
  | failed
  deriving DecidableEq, Repr

/-- state_RX (R43). -/
inductive RxState where
  | idle
  | receiving
  | done
  | failed
  deriving DecidableEq, Repr

/-- TX_STAT.TX_CAUSE (R461); the codes 4..15 are never written. -/
inductive TxCause where
  | none
  | input
  | window
  | giveUp
  deriving DecidableEq, Repr

/-- RX_STAT.RX_CAUSE (R462); the codes 2..15 are never written. -/
inductive RxCause where
  | none
  | overflow
  deriving DecidableEq, Repr

/-- ERR_CAUSE.CMD_CAUSE (R463); the codes 4..15 are never written. -/
inductive CmdCause where
  | none
  | illegal
  | state
  | length
  deriving DecidableEq, Repr

/-- The bits of STATUS (R36). -/
inductive StatusBit where
  | txDone
  | txFail
  | rxDone
  | rxFail
  | rxDrop
  | txRetx
  | cmdErr
  | wrIgn
  deriving DecidableEq, Repr

/-- The host registers of the register map (R32). -/
inductive Reg where
  | id
  | version
  | cmd
  | status
  | irqEn
  | errCause
  | ckStatus
  | config
  | window
  | maxRetry
  | initRtt
  | initTo
  | ports
  | txLen
  | txStat
  | txNseg
  | txCur
  | txSeq
  | txAck
  | estRtt
  | devRtt
  | timeout
  | rttSampleIn
  | lastSample
  | segSent
  | bytesSent
  | retxCnt
  | retryCur
  | elapsed
  | sendTimeLo
  | sendTimeHi
  | xferTimeLo
  | xferTimeHi
  | nowLo
  | nowHi
  | rxStat
  | rxBytes
  | rxSegs
  | rxDropCksum
  | rxDropMalf
  | rxLastAck
  | ckLen
  | ckResult
  | segPorts
  | segSeq
  | segAck
  | segFlags
  | segCksum
  | segLen
  deriving DecidableEq, Repr

/-- The access types of R32. -/
inductive AccessType where
  | ro
  | rw
  | rwl
  | wo
  | w1c
  deriving DecidableEq, Repr

/-- A byte memory: the bytes written since the last reset, as (offset, byte) pairs with strictly rising offsets. An offset that
is not listed holds no written byte; what such a byte reads as is the draw of Config.drawByte (R60, R536; log entry 2). -/
abbrev Memory := List Host.Cell

/-- The five byte memories (R60). -/
structure Mems where
  ckBuf : Memory
  txSegbuf : Memory
  rxSegbuf : Memory
  txMem : Memory
  rxMem : Memory
  deriving DecidableEq, Repr

/-- The RW-L registers, the session configuration (R52 to R57, R65). -/
structure SessionConfig where
  /-- CONFIG[0] (R52). -/
  firstOvr : Bool
  /-- CONFIG[1] (R52). -/
  ackCheck : Bool
  /-- CONFIG[15:8] (R52). -/
  padByte : Byte
  /-- WINDOW (R53). -/
  window : Word
  /-- MAX_RETRY (R54). -/
  maxRetry : Word
  /-- INIT_RTT, Q24.8 (R55). -/
  initRtt : Word
  /-- INIT_TO, Q24.8 (R55). -/
  initTo : Word
  /-- PORTS (R56). -/
  ports : Word
  /-- TX_LEN (R57). -/
  txLen : Word
  deriving DecidableEq, Repr

/-- The sender's state machine, statistics and times (R40, R42, R45 to R48, R51, R58). -/
structure TxUnit where
  /-- state_TX (R42). -/
  state : TxState
  /-- TX_CAUSE (R40, R461). -/
  cause : TxCause
  /-- TX_NSEG (R58). -/
  nseg : Word
  /-- TX_CUR (R58). -/
  cur : Word
  /-- TX_SEQ (R58). -/
  seq : Word
  /-- TX_ACK (R58). -/
  ack : Word
  /-- SEG_SENT (R51). -/
  segSent : Word
  /-- BYTES_SENT (R51). -/
  bytesSent : Word
  /-- RETX_CNT (R51). -/
  retxCnt : Word
  /-- RETRY_CUR (R51). -/
  retryCur : Word
  /-- ELAPSED (R45). -/
  elapsed : Word
  /-- SEND_TIME (R46). -/
  sendTime : DWord
  /-- START_TIME, not host-visible (R47). -/
  startTime : DWord
  /-- XFER_TIME (R48). -/
  xferTime : DWord
  deriving DecidableEq, Repr

/-- The RTT estimator (R40, R49, R50). -/
structure RttUnit where
  /-- EST_RTT, Q24.8 (R49). -/
  est : Word
  /-- DEV_RTT, Q24.8 (R49). -/
  dev : Word
  /-- TIMEOUT, Q24.8 (R49). -/
  timeout : Word
  /-- TX_STAT.RTT_FIRST (R40, R250). -/
  first : Bool
  /-- RTT_SAMPLE_IN (R50). -/
  sampleIn : Word
  /-- LAST_SAMPLE (R50). -/
  lastSample : Word
  deriving DecidableEq, Repr

/-- The receiver's state machine and counters (R41, R43, R59). -/
structure RxUnit where
  /-- state_RX (R43). -/
  state : RxState
  /-- RX_CAUSE (R41, R462). -/
  cause : RxCause
  /-- RX_BYTES (R59). -/
  bytes : Word
  /-- RX_SEGS (R59). -/
  segs : Word
  /-- RX_DROP_CKSUM (R59). -/
  dropCksum : Word
  /-- RX_DROP_MALF (R59). -/
  dropMalf : Word
  /-- RX_LAST_ACK (R59). -/
  lastAck : Word
  deriving DecidableEq, Repr

/-- The codec's registers (R39, R61, R62). -/
structure CkUnit where
  /-- CK_LEN (R61). -/
  len : Word
  /-- CK_RESULT[15:0] (R61). -/
  result : Half
  /-- CK_STATUS[0] (R39). -/
  verifyOk : Bool
  /-- CK_STATUS[1] (R39). -/
  malformed : Bool
  /-- CK_STATUS[2] (R39). -/
  lenBad : Bool
  /-- SEG_PORTS (R62). -/
  segPorts : Word
  /-- SEG_SEQ (R62). -/
  segSeq : Word
  /-- SEG_ACK (R62). -/
  segAck : Word
  /-- SEG_FLAGS (R62). -/
  segFlags : Word
  /-- SEG_CKSUM[15:0] (R62). -/
  segCksum : Half
  /-- SEG_LEN (R62). -/
  segLen : Word
  deriving DecidableEq, Repr

/-- The whole state: what the spec gives the block, then the five fields of the model's own (INVENTORY.md, ## State). -/
structure State where
  /-- The RW-L registers. -/
  cfg : SessionConfig
  /-- The sender. -/
  tx : TxUnit
  /-- The RTT estimator. -/
  rtt : RttUnit
  /-- The receiver. -/
  rx : RxUnit
  /-- The codec. -/
  ck : CkUnit
  /-- STATUS[7:0] (R36). -/
  status : Byte
  /-- IRQ_EN[7:0] (R37). -/
  irqEn : Byte
  /-- ERR_CAUSE.CMD_CAUSE (R38). -/
  cmdCause : CmdCause
  /-- NOW (R44). -/
  now : DWord
  /-- The read latch NOW_HI_L (R44, R63). -/
  nowHiL : Word
  /-- The read latch SEND_TIME_HI_L (R63). -/
  sendTimeHiL : Word
  /-- The read latch XFER_TIME_HI_L (R63). -/
  xferTimeHiL : Word
  /-- The byte memories (R60). -/
  mem : Mems
  /-- The DTX output trace, oldest first (R63). -/
  dtx : List Datagram
  /-- The ATX output trace, oldest first (R63). -/
  atx : List Word
  /-- The LOG output trace, oldest first (R63). -/
  log : List LogRecord
  /-- The model's own: the HOST port's answer to the most recent host access (log entry 5). -/
  hostResp : Option HostResponse
  /-- The model's own: the events the environment is known to present, next first (log entry 1). -/
  inputs : List Event
  /-- The model's own: how many turns the environment has had since inputs ran out; it selects the draws of Config.environment
  (log entry 23). -/
  turn : Nat
  /-- The model's own: how many RST steps were taken; it selects the memory draws (log entries 2 and 3). -/
  resets : Nat
  /-- The model's own: the build's parameters, which no step changes (log entry 4). -/
  build : Config.Build
  deriving DecidableEq, Repr

/-- Why the block stops: never. Every abnormal event of the spec is a next state (R460): a unit fault, a command error, a
drop, a bus error response. So the type has no constructor. -/
inductive Fault where
  deriving DecidableEq, Repr

/-- Why a command has no meaning. -/
inductive Refusal where
  /-- Raised by exec's arm for a command the model has not reached; no arm raises it. Safe: it stops the run. -/
  | notModelled (mnemonic : String)
  deriving DecidableEq, Repr

/-- No memory byte has been written since reset (R66, R520). -/
def Mems.reset : Mems := { ckBuf := [], txSegbuf := [], rxSegbuf := [], txMem := [], rxMem := [] }

/-- CONFIG resets to 0x00000001, WINDOW to 1, the rest to 0 (R32). -/
def SessionConfig.reset : SessionConfig :=
  { firstOvr := true, ackCheck := false, padByte := 0, window := 1, maxRetry := 0, initRtt := 0, initTo := 0, ports := 0,
    txLen := 0 }

/-- BUILDING, no cause, all else 0 (R66). -/
def TxUnit.reset : TxUnit :=
  { state := .building, cause := .none, nseg := 0, cur := 0, seq := 0, ack := 0, segSent := 0, bytesSent := 0, retxCnt := 0,
    retryCur := 0, elapsed := 0, sendTime := 0, startTime := 0, xferTime := 0 }

/-- RTT_FIRST = 1, all else 0 (R66). -/
def RttUnit.reset : RttUnit := { est := 0, dev := 0, timeout := 0, first := true, sampleIn := 0, lastSample := 0 }

/-- IDLE, no cause, all else 0 (R66). -/
def RxUnit.reset : RxUnit :=
  { state := .idle, cause := .none, bytes := 0, segs := 0, dropCksum := 0, dropMalf := 0, lastAck := 0 }

/-- CK_LEN = 576, all else 0 (R32, R61). -/
def CkUnit.reset : CkUnit :=
  { len := 576, result := 0, verifyOk := false, malformed := false, lenBad := false, segPorts := 0, segSeq := 0, segAck := 0,
    segFlags := 0, segCksum := 0, segLen := 0 }

/-- The machine right after reset (R66, R520), in the default build, with no event placed in inputs. -/
def State.reset : State :=
  { cfg := SessionConfig.reset, tx := TxUnit.reset, rtt := RttUnit.reset, rx := RxUnit.reset, ck := CkUnit.reset,
    status := 0, irqEn := 0, cmdCause := .none, now := 0, nowHiL := 0, sendTimeHiL := 0, xferTimeHiL := 0,
    mem := Mems.reset, dtx := [], atx := [], log := [],
    hostResp := none, inputs := [], turn := 0, resets := 0, build := Config.Build.default }

end Sys2Proof.Machine
end

