-- ==== Sys2Proof/Machine/Flags.lean ====
section
/-! DEFINITION. The flags: STATUS and its write-one-to-clear rule, the interrupt output, CK_STATUS, TX_STAT, RX_STAT and
ERR_CAUSE as the host reads them. -/

namespace Sys2Proof.Machine

/-- The place of a bit in STATUS (R36). -/
def StatusBit.index : StatusBit → Nat
  | .txDone => 0
  | .txFail => 1
  | .rxDone => 2
  | .rxFail => 3
  | .rxDrop => 4
  | .txRetx => 5
  | .cmdErr => 6
  | .wrIgn => 7

/-- The byte whose one set bit is the given STATUS bit. -/
def StatusBit.mask (b : StatusBit) : Byte := 1#8 <<< b.index

/-- Whether a STATUS bit is set (R36). -/
def State.statusBit (s : State) (b : StatusBit) : Bool := s.status.getLsbD b.index

/-- Hardware sets a STATUS bit (R36). -/
def State.setStatus (s : State) (b : StatusBit) : State := { s with status := s.status ||| b.mask }

/-- A host write of v to STATUS: each bit of v[7:0] that is 1 clears that STATUS bit (R441). -/
def State.clearStatus (s : State) (v : Word) : State := { s with status := s.status &&& ~~~(v.extractLsb' 0 8) }

/-- The interrupt output: some STATUS bit is set and enabled (R470). -/
def State.irq (s : State) : Bool := (s.status &&& s.irqEn) != 0

/-- The encoding of state_TX (R42). -/
def TxState.code : TxState → BitVec 2
  | .building => 0
  | .sending => 1
  | .done => 2
  | .failed => 3

/-- The encoding of state_RX (R43). -/
def RxState.code : RxState → BitVec 2
  | .idle => 0
  | .receiving => 1
  | .done => 2
  | .failed => 3

/-- The TX fault codes (R461). -/
def TxCause.code : TxCause → BitVec 4
  | .none => 0
  | .input => 1
  | .window => 2
  | .giveUp => 3

/-- The RX fault codes (R462). -/
def RxCause.code : RxCause → BitVec 4
  | .none => 0
  | .overflow => 1

/-- The command-error codes (R463). -/
def CmdCause.code : CmdCause → BitVec 4
  | .none => 0
  | .illegal => 1
  | .state => 2
  | .length => 3

/-- A flag as one bit. -/
def bit (b : Bool) : BitVec 1 := BitVec.ofBool b

/-- STATUS as read: [31:8] are reserved and read 0 (R32, R36). -/
def statusWord (s : State) : Word := 0#24 ++ s.status

/-- IRQ_EN as read (R37). -/
def irqEnWord (s : State) : Word := 0#24 ++ s.irqEn

/-- ERR_CAUSE as read: [3:0] CMD_CAUSE (R38). -/
def errCauseWord (s : State) : Word := 0#28 ++ s.cmdCause.code

/-- CK_STATUS as read: [0] VERIFY_OK, [1] MALFORMED, [2] LEN_BAD (R39). -/
def ckStatusWord (s : State) : Word := 0#29 ++ bit s.ck.lenBad ++ bit s.ck.malformed ++ bit s.ck.verifyOk

/-- CONFIG as read: [0] FIRST_OVR, [1] ACK_CHECK, [15:8] PAD_BYTE (R52). -/
def configWord (s : State) : Word := 0#16 ++ s.cfg.padByte ++ 0#6 ++ bit s.cfg.ackCheck ++ bit s.cfg.firstOvr

/-- TX_STAT as read: [1:0] TX_STATE, [7:4] TX_CAUSE, [8] RTT_FIRST (R40). -/
def txStatWord (s : State) : Word := 0#23 ++ bit s.rtt.first ++ s.tx.cause.code ++ 0#2 ++ s.tx.state.code

/-- RX_STAT as read: [1:0] RX_STATE, [7:4] RX_CAUSE (R41). -/
def rxStatWord (s : State) : Word := 0#24 ++ s.rx.cause.code ++ 0#2 ++ s.rx.state.code

end Sys2Proof.Machine
end

