-- ==== Sys2Proof/Machine/Ops.lean ====
section
/-! DEFINITION. The shared operations: saturating arithmetic (R13), byte sequences (R14), the byte memories (R15, R60), the
output ports (R15), taking a unit fault or a command error and leaving a finished session (R463, R466, R468), and reset
(R520). -/

namespace Sys2Proof.Machine

/-! ## Arithmetic -/

/-- sat32 of R13: an exact value, capped at 2^32 - 1. -/
def sat32 (n : Nat) : Word := BitVec.ofNat 32 (min n 0xFFFFFFFF)

/-- The absolute difference of R13. -/
def absDiff (a b : Nat) : Nat := if a ≤ b then b - a else a - b

/-- ceil(a / b) of R13, for b > 0. -/
def ceilDiv (a b : Nat) : Nat := (a + (b - 1)) / b

/-! ## Byte sequences -/

/-- B[i] (R14). The rules read only indexes inside B. -/
def byteAt (b : Datagram) (i : Nat) : Byte := b.getD i 0

/-- BE16(B, i): B[i] is the high byte (R14). -/
def be16 (b : Datagram) (i : Nat) : Half := byteAt b i ++ byteAt b (i + 1)

/-- BE32(B, i) (R14). -/
def be32 (b : Datagram) (i : Nat) : Word := byteAt b i ++ byteAt b (i + 1) ++ byteAt b (i + 2) ++ byteAt b (i + 3)

/-- The two bytes putBE16 writes, high byte first (R14). -/
def be16Bytes (v : Half) : List Byte := [v.extractLsb' 8 8, v.extractLsb' 0 8]

/-- The four bytes putBE32 writes, high byte first (R14). -/
def be32Bytes (v : Word) : List Byte :=
  [v.extractLsb' 24 8, v.extractLsb' 16 8, v.extractLsb' 8 8, v.extractLsb' 0 8]

/-- putBE16(B, i, v) (R14). -/
def putBe16 (b : Datagram) (i : Nat) (v : Half) : Datagram := (b.set i (v.extractLsb' 8 8)).set (i + 1) (v.extractLsb' 0 8)

/-- The bytes an n-byte host write carries: byte k is data bits [8k+7:8k] (R102). -/
def hostBytes (n : Nat) (v : Word) : List Byte := (List.range n).map (fun k => v.extractLsb' (8 * k) 8)

/-- The value a host read of these bytes carries: byte k on data bits [8k+7:8k], the bits above them 0 (R102; log entry 6). -/
def hostValue : List Byte → Word
  | [] => 0
  | b :: bs => b.setWidth 32 ||| (hostValue bs <<< 8)

/-! ## Byte memories -/

/-- The canonical form of a memory: strictly rising offsets. -/
def Memory.wf : Memory → Bool
  | [] => true
  | [_] => true
  | c :: d :: m => decide (c.1 < d.1) && Memory.wf (d :: m)

/-- The byte written at an offset since reset, if any. -/
def Memory.peek : Memory → Nat → Option Byte
  | [], _ => none
  | c :: m, a => if c.1 = a then some c.2 else Memory.peek m a

/-- The listing of bytes at offsets a, a+1, … -/
def Memory.cells : Nat → List Byte → Memory
  | _, [] => []
  | a, b :: bs => (a, b) :: Memory.cells (a + 1) bs

/-- MemWrite: bytes bs at offsets a, a+1, … (R15). Everything else stands; the canonical form is kept. -/
def Memory.write (m : Memory) (a : Nat) (bs : List Byte) : Memory :=
  m.filter (fun c => Nat.blt c.1 a) ++ Memory.cells a bs ++ m.filter (fun c => Nat.ble (a + bs.length) c.1)

/-- Read n bytes from offset a in one walk over a memory in canonical form whose offsets below a are left out; `draw` gives
the byte of an offset not written since reset. -/
def Memory.walk (draw : Nat → Byte) : Nat → Memory → Nat → List Byte
  | 0, _, _ => []
  | n + 1, [], a => draw a :: Memory.walk draw n [] (a + 1)
  | n + 1, c :: m, a =>
    bif Nat.beq c.1 a then c.2 :: Memory.walk draw n m (a + 1) else draw a :: Memory.walk draw n (c :: m) (a + 1)

/-- One of the five memories. -/
def Mems.get (m : Mems) : Space → Memory
  | .ckBuf => m.ckBuf
  | .txSegbuf => m.txSegbuf
  | .rxSegbuf => m.rxSegbuf
  | .txMem => m.txMem
  | .rxMem => m.rxMem

/-- Put one of the five memories. -/
def Mems.put (m : Mems) (sp : Space) (x : Memory) : Mems :=
  match sp with
  | .ckBuf => { m with ckBuf := x }
  | .txSegbuf => { m with txSegbuf := x }
  | .rxSegbuf => { m with rxSegbuf := x }
  | .txMem => { m with txMem := x }
  | .rxMem => { m with rxMem := x }

/-- MemRead of one byte (R15): the byte written since reset, else the draw the last reset left there (R60, R520, I2). -/
def State.readByte (s : State) (sp : Space) (a : Nat) : Byte :=
  ((s.mem.get sp).peek a).getD (Config.drawByte s.resets sp a)

/-- MemRead of n bytes (R15): byte k is the byte at offset a + k. On a memory in canonical form one walk gives the same bytes;
Laws/Memory.lean proves that the two branches agree (readBytes_eq_map). -/
def State.readBytes (s : State) (sp : Space) (a n : Nat) : List Byte :=
  bif (s.mem.get sp).wf then
    Memory.walk (Config.drawByte s.resets sp) n ((s.mem.get sp).filter (fun c => Nat.ble a c.1)) a
  else (List.range n).map (fun k => s.readByte sp (a + k))

/-- MemWrite (R15). -/
def State.writeBytes (s : State) (sp : Space) (a : Nat) (bs : List Byte) : State :=
  { s with mem := s.mem.put sp ((s.mem.get sp).write a bs) }

/-- The size of a memory (R60). -/
def spaceSize (b : Config.Build) : Space → Nat
  | .ckBuf => Config.packetSize
  | .txSegbuf => Config.packetSize
  | .rxSegbuf => Config.packetSize
  | .txMem => b.txMemSize
  | .rxMem => b.rxMemSize

/-! ## Output ports -/

/-- emit DTX (R15). -/
def State.emitDtx (s : State) (d : Datagram) : State := { s with dtx := s.dtx ++ [d] }

/-- emit ATX (R15). -/
def State.emitAtx (s : State) (t : Word) : State := { s with atx := s.atx ++ [t] }

/-- emit LOG (R15). -/
def State.emitLog (s : State) (r : LogRecord) : State := { s with log := s.log ++ [r] }

/-! ## Faults and errors, and the way back -/

/-- raise Fault(TX, c) (R466). -/
def State.raiseTx (s : State) (c : TxCause) : State :=
  { s with tx := { s.tx with state := .failed, cause := c } }.setStatus .txFail

/-- raise Fault(RX, c) (R466). -/
def State.raiseRx (s : State) (c : RxCause) : State :=
  { s with rx := { s.rx with state := .failed, cause := c } }.setStatus .rxFail

/-- raise CmdError(c): STATUS.CMD_ERR and CMD_CAUSE, nothing else (R432, R463). -/
def State.cmdError (s : State) (c : CmdCause) : State := { s with cmdCause := c }.setStatus .cmdErr

/-- The way out of a finished TX session (R330, R468). -/
def State.leaveTx (s : State) : State := { s with tx := { s.tx with state := .building, cause := .none } }

/-- The way out of a finished RX session (R371, R468). -/
def State.leaveRx (s : State) : State := { s with rx := { s.rx with state := .idle, cause := .none } }

/-! ## Reset -/

/-- The RST step (R520): every piece of state to its reset value, with a fresh draw in every memory byte. The build is the
same chip, and what the environment has still to present is not the block's (R521; log entry 15). -/
def State.applyReset (s : State) : State :=
  { State.reset with resets := s.resets + 1, inputs := s.inputs, turn := s.turn, build := s.build }

end Sys2Proof.Machine
end

