-- ==== Sys2Proof/Machine/Codec.lean ====
section
/-! DEFINITION. The codec and checksum unit (40_codec.md): the pure functions CKSUM, VERIFY, DECODE and BUILD, and the four
commands on CK_BUF. -/

namespace Sys2Proof.Machine

/-! ## The pure functions -/

/-- B': the buffer with the two checksum bytes read as zero (R201). -/
def zeroField (b : Datagram) : Datagram := (b.set 16 0).set 17 0

/-- The little-endian words of a buffer in order: the first byte of each pair is the low byte (R112, R201). -/
def leWords : Datagram → List Half
  | lo :: hi :: rest => (hi ++ lo) :: leWords rest
  | _ => []

/-- One addition with the end-around carry (R202). -/
def addFold (s w : Nat) : Nat :=
  let t := s + w
  if t > 0xFFFF then t % 0x10000 + 1 else t

/-- CKSUM(B): the words added in order with an end-around carry after each addition; not negated (R202). -/
def cksum (b : Datagram) : Half := BitVec.ofNat 16 ((leWords (zeroField b)).foldl (fun s w => addFold s w.toNat) 0)

/-- VERIFY(B): the recomputed checksum is the embedded one (R207). -/
def verify (b : Datagram) : Bool := cksum b == be16 b 16

/-- The fields of a decoded segment (R157). -/
structure SegFields where
  sourcePort : Half
  destPort : Half
  sequenceNumber : Word
  ackNumber : Word
  headerSize : Half
  finByte : Byte
  ackByte : Byte
  checksum : Half
  deriving DecidableEq, Repr

/-- DECODE(B) (R157). -/
def decodeSeg (b : Datagram) : SegFields :=
  { sourcePort := be16 b 0, destPort := be16 b 2, sequenceNumber := be32 b 4, ackNumber := be32 b 8,
    headerSize := be16 b 12, finByte := byteAt b 14, ackByte := byteAt b 15, checksum := be16 b 16 }

/-- fin is true iff the finFlag byte is not 0x00 (R155). -/
def SegFields.fin (f : SegFields) : Bool := f.finByte != 0

/-- The payload length mod32(ackNumber - sequenceNumber) (R158). -/
def SegFields.payloadLength (f : SegFields) : Word := f.ackNumber - f.sequenceNumber

/-- The 20 header bytes BUILD writes, with the checksum placeholder (R240). -/
def header (src dst : Half) (seq ack : Word) (fin : Bool) : List Byte :=
  be16Bytes src ++ be16Bytes dst ++ be32Bytes seq ++ be32Bytes ack ++ [0x00, 0x14] ++
  [bif fin then 0x01 else 0x00, 0x01] ++ [0x00, 0x00] ++ [0x00, 0x00]

/-- BUILD's buffer before the checksum is written: the header, the payload, then the filler byte up to 576 bytes (R203, R240). -/
def unsummed (src dst : Half) (seq ack : Word) (fin : Bool) (payload : List Byte) (pad : Byte) : Datagram :=
  header src dst seq ack fin ++ payload ++ List.replicate (Config.mss - payload.length) pad

/-- BUILD(src, dst, seq, ack, fin, P, pad) (R240). -/
def buildSeg (src dst : Half) (seq ack : Word) (fin : Bool) (payload : List Byte) (pad : Byte) : Datagram :=
  putBe16 (unsummed src dst seq ack fin payload pad) 16 (cksum (unsummed src dst seq ack fin payload pad))

/-! ## The commands -/

/-- CK_BUF[0..575]. -/
def State.ckBytes (s : State) : Datagram := s.readBytes .ckBuf 0 Config.packetSize

/-- CK_COMPUTE (R211). -/
def execCkCompute (s : State) : Host.Outcome State Fault Refusal :=
  .next { s with ck := { s.ck with result := cksum s.ckBytes } }

/-- CK_VERIFY (R221). -/
def execCkVerify (s : State) : Host.Outcome State Fault Refusal :=
  if s.ck.len ≠ 576 then
    .next { s with ck := { s.ck with malformed := true, verifyOk := false } }
  else
    .next { s with
      ck := { s.ck with result := cksum s.ckBytes, verifyOk := cksum s.ckBytes == be16 s.ckBytes 16, malformed := false } }

/-- The SEG_* registers and LEN_BAD that a decoded segment leaves (R231). -/
def CkUnit.takeFields (k : CkUnit) (f : SegFields) : CkUnit :=
  { k with
    segPorts := f.destPort ++ f.sourcePort
    segSeq := f.sequenceNumber
    segAck := f.ackNumber
    segFlags := f.headerSize ++ f.ackByte ++ f.finByte
    segCksum := f.checksum
    segLen := f.payloadLength
    lenBad := decide (f.payloadLength.toNat > Config.mss)
    malformed := false }

/-- SEG_DECODE (R231). -/
def execSegDecode (s : State) : Host.Outcome State Fault Refusal :=
  if s.ck.len ≠ 576 then
    .next { s with ck := { s.ck with malformed := true, lenBad := false } }
  else
    .next { s with ck := s.ck.takeFields (decodeSeg s.ckBytes) }

/-- The payload length SEG_ENCODE works with, mod32(SEG_ACK - SEG_SEQ) (R241). -/
def State.encodeLength (s : State) : Word := s.ck.segAck - s.ck.segSeq

/-- The buffer SEG_ENCODE builds (R241): the payload is what the host placed in CK_BUF[20 .. 20+p-1]. -/
def State.encodedSegment (s : State) : Datagram :=
  buildSeg (s.ck.segPorts.extractLsb' 0 16) (s.ck.segPorts.extractLsb' 16 16) s.ck.segSeq s.ck.segAck
    (s.ck.segFlags.extractLsb' 0 8 != 0) (s.readBytes .ckBuf Config.headerSize s.encodeLength.toNat) s.cfg.padByte

/-- What SEG_ENCODE leaves when it has built the buffer d (R241). -/
def State.putEncoded (s : State) (d : Datagram) : State :=
  { s.writeBytes .ckBuf 0 d with
    ck := { s.ck with len := 576, result := be16 d 16, segCksum := be16 d 16, segLen := s.encodeLength } }

/-- SEG_ENCODE (R241). -/
def execSegEncode (s : State) : Host.Outcome State Fault Refusal :=
  if s.encodeLength.toNat > Config.mss then .next (s.cmdError .length)
  else .next (s.putEncoded s.encodedSegment)

end Sys2Proof.Machine
end

