-- ==== Sys2Proof/Machine/Control.lean ====
section
/-! DEFINITION. The command without a family (44_control.md): NOP. -/

namespace Sys2Proof.Machine

/-- NOP does nothing (R440). -/
def execNop (s : State) : Host.Outcome State Fault Refusal := .next s

end Sys2Proof.Machine
end

