-- ==== Sys2Proof/Machine/Receiver.lean ====
section
/-! DEFINITION. The receiver unit RX (43_receiver.md): the commands RX_START and RX_CLEAR, and the DRX event. -/

namespace Sys2Proof.Machine

/-- RX_START (R370). -/
def execRxStart (s : State) : Host.Outcome State Fault Refusal :=
  if s.rx.state ≠ .idle then .next (s.cmdError .state)
  else .next { s with
    rx := { state := .receiving, cause := .none, bytes := 0, segs := 0, dropCksum := 0, dropMalf := 0, lastAck := 0 } }

/-- RX_CLEAR (R371). -/
def execRxClear (s : State) : Host.Outcome State Fault Refusal :=
  if s.rx.state = .receiving then .next (s.cmdError .state) else .next s.leaveRx

/-- A malformed datagram is dropped (R380, R383). -/
def State.dropMalformed (s : State) : State :=
  { s with rx := { s.rx with dropMalf := sat32 (s.rx.dropMalf.toNat + 1) } }.setStatus .rxDrop

/-- A corrupt datagram is dropped (R382). -/
def State.dropCorrupt (s : State) : State :=
  { s with rx := { s.rx with dropCksum := sat32 (s.rx.dropCksum.toNat + 1) } }.setStatus .rxDrop

/-- The RX log record of a delivered segment (R162, R387). -/
def rxRecord (f : SegFields) (now : DWord) : LogRecord :=
  { kind := 2, timestamp := now, seq := f.sequenceNumber, ack := f.ackNumber, fin := bif f.fin then 1 else 0,
    aux := f.destPort ++ f.sourcePort }

/-- The payload of a datagram, trimmed to its true length (R385). -/
def payloadOf (d : Datagram) (len : Nat) : List Byte := (d.drop Config.headerSize).take len

/-- Delivery, acknowledgment and logging of a valid segment (R385 to R387). -/
def State.deliver (s : State) (d : Datagram) : State :=
  let f := decodeSeg d
  (({ s.writeBytes .rxMem s.rx.bytes.toNat (payloadOf d f.payloadLength.toNat) with
      rx := { s.rx with
        bytes := sat32 (s.rx.bytes.toNat + f.payloadLength.toNat)
        segs := sat32 (s.rx.segs.toNat + 1)
        lastAck := f.ackNumber } }).emitAtx f.ackNumber).emitLog (rxRecord f s.now)

/-- Termination on the FIN segment (R388). -/
def State.finishRx (s : State) : State := { s with rx := { s.rx with state := .done } }.setStatus .rxDone

/-- The DRX step from the integrity check on, RX_SEGBUF already written (R376, R382 to R388). -/
def State.checkAndDeliver (s : State) (d : Datagram) : State :=
  let f := decodeSeg d
  if verify d = false then s.dropCorrupt
  else if f.payloadLength.toNat > Config.mss then s.dropMalformed
  else if s.rx.bytes.toNat + f.payloadLength.toNat > s.build.rxMemSize then s.raiseRx .overflow
  else bif f.fin then (s.deliver d).finishRx else s.deliver d

/-- The DRX event: a datagram arrives (R375, R376, R380, R381). Outside RECEIVING it is not consumed and changes nothing; the
model's channel then loses it (log entry 7). -/
def onDrx (d : Datagram) (s : State) : State :=
  if s.rx.state ≠ .receiving then s
  else if d.length ≠ Config.packetSize then s.dropMalformed
  else (s.writeBytes .rxSegbuf 0 d).checkAndDeliver d

end Sys2Proof.Machine
end

