-- ==== Sys2Proof/Machine/Rtt.lean ====
section
/-! DEFINITION. The RTT estimator (41_rtt.md): initialisation, the update ONSAMPLE, and the two commands. -/

namespace Sys2Proof.Machine

/-- RTT_INIT_STATE (R250). -/
def RttUnit.initState (r : RttUnit) (c : SessionConfig) : RttUnit :=
  { r with est := c.initRtt, dev := 0, timeout := c.initTo, first := true }

/-- A sample of n ticks in Q24.8: min(n, 0x00FFFFFF) << 8 (R251). -/
def sampleQ (n : Word) : Nat := min n.toNat 0x00FFFFFF * 256

/-- The deviation update: (3 DEV + D) >> 2 with D = |S - EST|, EST before the update (R252, R253). -/
def nextDev (dev est s : Nat) : Nat := (3 * dev + absDiff s est) / 4

/-- The mean update: override on the first sample when the policy says so, else (7 EST + S) >> 3 (R254). -/
def nextEst (override : Bool) (est s : Nat) : Nat := bif override then s else (7 * est + s) / 8

/-- ONSAMPLE(n) (R256): deviation from the old mean, then the mean, then TIMEOUT from the two new values, saturated (R255). -/
def RttUnit.onSample (r : RttUnit) (firstOvr : Bool) (n : Word) : RttUnit :=
  let dev := nextDev r.dev.toNat r.est.toNat (sampleQ n)
  let est := nextEst (firstOvr && r.first) r.est.toNat (sampleQ n)
  { r with
    dev := BitVec.ofNat 32 dev
    est := BitVec.ofNat 32 est
    timeout := sat32 (est + 4 * dev)
    first := false
    lastSample := n }

/-- RTT_INIT_STATE on the whole state. -/
def State.rttInitState (s : State) : State := { s with rtt := s.rtt.initState s.cfg }

/-- ONSAMPLE on the whole state. -/
def State.onSample (s : State) (n : Word) : State := { s with rtt := s.rtt.onSample s.cfg.firstOvr n }

/-- RTT_INIT (R260). -/
def execRttInit (s : State) : Host.Outcome State Fault Refusal :=
  if s.tx.state = .sending then .next (s.cmdError .state) else .next s.rttInitState

/-- RTT_SAMPLE (R261). -/
def execRttSample (s : State) : Host.Outcome State Fault Refusal :=
  if s.tx.state = .sending then .next (s.cmdError .state) else .next (s.onSample s.rtt.sampleIn)

end Sys2Proof.Machine
end

