-- ==== Sys2Proof/Machine/Sender.lean ====
section
/-! DEFINITION. The sender unit TX (42_sender.md): segmentation, TRANSMIT, RETRANSMIT, ACCEPT and COMPLETE, the commands
TX_START and TX_CLEAR, and the ARX and TICK events. -/

namespace Sys2Proof.Machine

/-! ## Segmentation (R303) -/

/-- TX_NSEG for an input of L bytes: max(1, ceil(L / 556)). -/
def segCount (len : Nat) : Nat := max 1 (ceilDiv len Config.mss)

/-- seq_k. -/
def segSeq (k : Nat) : Nat := Config.mss * k

/-- len_k. In the rules L - seq_k is never negative (R303); in states no run reaches the subtraction stops at 0 (log entry
11). -/
def segLen (len k : Nat) : Nat := min Config.mss (len - segSeq k)

/-- ack_k. -/
def segAck (len k : Nat) : Nat := segSeq k + segLen len k

/-- fin_k: k is the last of nseg segments. -/
def segFin (nseg k : Nat) : Bool := k + 1 == nseg

/-- Segment k of the session, built for the wire (R303, R310). -/
def State.segment (s : State) (k : Nat) : Datagram :=
  buildSeg (s.cfg.ports.extractLsb' 0 16) (s.cfg.ports.extractLsb' 16 16)
    (BitVec.ofNat 32 (segSeq k)) (BitVec.ofNat 32 (segAck s.cfg.txLen.toNat k)) (segFin s.tx.nseg.toNat k)
    (s.readBytes .txMem (segSeq k) (segLen s.cfg.txLen.toNat k)) s.cfg.padByte

/-! ## Transmission (R310, R321) -/

/-- The sender's registers after the first transmission of segment k at time now (R310). -/
def TxUnit.transmitted (t : TxUnit) (len k : Nat) (now : DWord) : TxUnit :=
  { t with
    cur := BitVec.ofNat 32 k
    seq := BitVec.ofNat 32 (segSeq k)
    ack := BitVec.ofNat 32 (segAck len k)
    segSent := sat32 (t.segSent.toNat + 1)
    bytesSent := sat32 (t.bytesSent.toNat + segLen len k)
    sendTime := now
    elapsed := 0
    retryCur := 0
    state := .sending }

/-- TRANSMIT(k) (R310). -/
def State.transmit (s : State) (k : Nat) : State :=
  { (s.writeBytes .txSegbuf 0 (s.segment k)).emitDtx (s.segment k) with
    tx := s.tx.transmitted s.cfg.txLen.toNat k s.now }

/-- The sender's registers after a retransmission at time now (R321). -/
def TxUnit.retransmitted (t : TxUnit) (now : DWord) : TxUnit :=
  { t with
    retxCnt := sat32 (t.retxCnt.toNat + 1)
    retryCur := sat32 (t.retryCur.toNat + 1)
    sendTime := now
    elapsed := 0 }

/-- TX_SEGBUF[0..575], the retained segment (R60). -/
def State.retained (s : State) : Datagram := s.readBytes .txSegbuf 0 Config.packetSize

/-- RETRANSMIT (R321). -/
def State.retransmit (s : State) : State :=
  { s.emitDtx s.retained with tx := s.tx.retransmitted s.now }.setStatus .txRetx

/-! ## Acknowledgment (R311 to R313) -/

/-- Whether the current segment is the last: TX_CUR = TX_NSEG - 1 in exact integers (R312). -/
def State.lastSegment (s : State) : Bool := segFin s.tx.nseg.toNat s.tx.cur.toNat

/-- COMPLETE (R313). -/
def State.complete (s : State) : State :=
  { s with tx := { s.tx with xferTime := s.now - s.tx.startTime, state := .done } }.setStatus .txDone

/-- The TX log record of the current segment (R161, R312). -/
def State.txRecord (s : State) : LogRecord :=
  { kind := 1, timestamp := s.tx.sendTime, seq := s.tx.seq, ack := s.tx.ack,
    fin := bif s.lastSegment then 1 else 0, aux := s.rtt.est }

/-- The first two lines of ACCEPT: the sample, then the record with the updated estimate (R312). -/
def State.sampleAndLog (s : State) : State :=
  (s.onSample s.tx.elapsed).emitLog (s.onSample s.tx.elapsed).txRecord

/-- ACCEPT (R312). -/
def State.accept (s : State) : State :=
  bif s.lastSegment then s.sampleAndLog.complete else s.sampleAndLog.transmit (s.tx.cur.toNat + 1)

/-- The ARX event: token t arrives (R311). -/
def onArx (t : Word) (s : State) : State :=
  if s.tx.state ≠ .sending then s
  else if s.cfg.ackCheck = true ∧ t ≠ s.tx.ack then s
  else s.accept

/-! ## Time (R320) -/

/-- NOW <- mod64(NOW + 1) (R44). -/
def State.advanceNow (s : State) : State := { s with now := s.now + 1 }

/-- ELAPSED <- sat32(ELAPSED + 1) (R45, R320). -/
def State.advanceElapsed (s : State) : State := { s with tx := { s.tx with elapsed := sat32 (s.tx.elapsed.toNat + 1) } }

/-- ELAPSED * 256 >= TIMEOUT (R320). -/
def State.timedOut (s : State) : Bool := decide (s.tx.elapsed.toNat * 256 ≥ s.rtt.timeout.toNat)

/-- MAX_RETRY != 0 and RETRY_CUR >= MAX_RETRY (R320, R322). -/
def State.retriesUsedUp (s : State) : Bool :=
  decide (s.cfg.maxRetry ≠ 0) && decide (s.tx.retryCur.toNat ≥ s.cfg.maxRetry.toNat)

/-- What a wait does at a TICK once ELAPSED has advanced: give up, retransmit, or wait on (R320). -/
def State.checkTimeout (s : State) : State :=
  bif s.timedOut then (bif s.retriesUsedUp then s.raiseTx .giveUp else s.retransmit) else s

/-- The TICK event (R320). -/
def onTick (s : State) : State :=
  if s.tx.state = .sending then s.advanceNow.advanceElapsed.checkTimeout else s.advanceNow

/-! ## The commands -/

/-- CLEAR_STATS (R302). -/
def State.clearStats (s : State) : State :=
  { s with
    tx := { s.tx with segSent := 0, bytesSent := 0, retxCnt := 0, retryCur := 0, elapsed := 0, xferTime := 0, cur := 0, nseg := 0,
                      seq := 0, ack := 0 } }

/-- What a start that passes the checks does after CLEAR_STATS (R300, R302). -/
def State.beginSession (s : State) : State :=
  { s.rttInitState with
    tx := { s.tx with nseg := BitVec.ofNat 32 (segCount s.cfg.txLen.toNat), startTime := s.now } }.transmit 0

/-- TX_START (R300, R301). -/
def execTxStart (s : State) : Host.Outcome State Fault Refusal :=
  if s.tx.state ≠ .building then .next (s.cmdError .state)
  else if s.cfg.txLen.toNat > s.build.txMemSize then .next (s.clearStats.raiseTx .input)
  else if s.cfg.window ≠ 1 then .next (s.clearStats.raiseTx .window)
  else .next s.clearStats.beginSession

/-- TX_CLEAR (R330). -/
def execTxClear (s : State) : Host.Outcome State Fault Refusal :=
  if s.tx.state = .sending then .next (s.cmdError .state) else .next s.leaveTx

end Sys2Proof.Machine
end

