-- ==== Sys2Proof/Machine/Dispatch.lean ====
section
/-! DEFINITION. One meaning per command (R430). -/

namespace Sys2Proof.Machine

def exec (i : Instr) (s : State) : Host.Outcome State Fault Refusal :=
  match i with
  | .nop => Sys2Proof.Machine.execNop s
  | .txStart => Sys2Proof.Machine.execTxStart s
  | .txClear => Sys2Proof.Machine.execTxClear s
  | .rxStart => Sys2Proof.Machine.execRxStart s
  | .rxClear => Sys2Proof.Machine.execRxClear s
  | .ckCompute => Sys2Proof.Machine.execCkCompute s
  | .ckVerify => Sys2Proof.Machine.execCkVerify s
  | .segDecode => Sys2Proof.Machine.execSegDecode s
  | .segEncode => Sys2Proof.Machine.execSegEncode s
  | .rttInit => Sys2Proof.Machine.execRttInit s
  | .rttSample => Sys2Proof.Machine.execRttSample s

end Sys2Proof.Machine
end

