-- ==== Sys2Proof/Machine/Operands.lean ====
section
/-! DEFINITION. The operand forms of the block: the host registers (R32) with their offsets, access types, reads and stores, and
the host address map (R101) with its admission rules (R103 to R105). -/

namespace Sys2Proof.Machine

/-- The offset column of R32. -/
def Reg.offset : Reg → Nat
  | .id => 0x000
  | .version => 0x004
  | .cmd => 0x008
  | .status => 0x00C
  | .irqEn => 0x010
  | .errCause => 0x014
  | .ckStatus => 0x018
  | .config => 0x020
  | .window => 0x024
  | .maxRetry => 0x028
  | .initRtt => 0x02C
  | .initTo => 0x030
  | .ports => 0x034
  | .txLen => 0x038
  | .txStat => 0x040
  | .txNseg => 0x044
  | .txCur => 0x048
  | .txSeq => 0x04C
  | .txAck => 0x050
  | .estRtt => 0x054
  | .devRtt => 0x058
  | .timeout => 0x05C
  | .rttSampleIn => 0x060
  | .lastSample => 0x064
  | .segSent => 0x068
  | .bytesSent => 0x06C
  | .retxCnt => 0x070
  | .retryCur => 0x074
  | .elapsed => 0x078
  | .sendTimeLo => 0x07C
  | .sendTimeHi => 0x080
  | .xferTimeLo => 0x084
  | .xferTimeHi => 0x088
  | .nowLo => 0x08C
  | .nowHi => 0x090
  | .rxStat => 0x0A0
  | .rxBytes => 0x0A4
  | .rxSegs => 0x0A8
  | .rxDropCksum => 0x0AC
  | .rxDropMalf => 0x0B0
  | .rxLastAck => 0x0B4
  | .ckLen => 0x0C0
  | .ckResult => 0x0C4
  | .segPorts => 0x0C8
  | .segSeq => 0x0CC
  | .segAck => 0x0D0
  | .segFlags => 0x0D4
  | .segCksum => 0x0D8
  | .segLen => 0x0DC

/-- The type column of R32. -/
def Reg.access : Reg → AccessType
  | .cmd => .wo
  | .status => .w1c
  | .irqEn | .rttSampleIn | .ckLen | .segPorts | .segSeq | .segAck | .segFlags => .rw
  | .config | .window | .maxRetry | .initRtt | .initTo | .ports | .txLen => .rwl
  | .id | .version | .errCause | .ckStatus => .ro
  | .txStat | .txNseg | .txCur | .txSeq | .txAck => .ro
  | .estRtt | .devRtt | .timeout | .lastSample => .ro
  | .segSent | .bytesSent | .retxCnt | .retryCur | .elapsed => .ro
  | .sendTimeLo | .sendTimeHi | .xferTimeLo | .xferTimeHi | .nowLo | .nowHi => .ro
  | .rxStat | .rxBytes | .rxSegs | .rxDropCksum | .rxDropMalf | .rxLastAck => .ro
  | .ckResult | .segCksum | .segLen => .ro

/-- Every register, in the order of R32. -/
def Reg.all : List Reg :=
  ([.id, .version, .cmd, .status, .irqEn, .errCause, .ckStatus] : List Reg) ++
  ([.config, .window, .maxRetry, .initRtt, .initTo, .ports, .txLen] : List Reg) ++
  ([.txStat, .txNseg, .txCur, .txSeq, .txAck, .estRtt, .devRtt, .timeout, .rttSampleIn, .lastSample] : List Reg) ++
  ([.segSent, .bytesSent, .retxCnt, .retryCur, .elapsed] : List Reg) ++
  ([.sendTimeLo, .sendTimeHi, .xferTimeLo, .xferTimeHi, .nowLo, .nowHi] : List Reg) ++
  ([.rxStat, .rxBytes, .rxSegs, .rxDropCksum, .rxDropMalf, .rxLastAck] : List Reg) ++
  ([.ckLen, .ckResult, .segPorts, .segSeq, .segAck, .segFlags, .segCksum, .segLen] : List Reg)

/-- The register at an offset, none where the map has none (R32). -/
def Reg.ofOffset (o : Nat) : Option Reg := Reg.all.find? (fun r => Nat.beq r.offset o)

/-- The low half of a 64-bit counter (R44). -/
def lo32 (v : DWord) : Word := v.extractLsb' 0 32

/-- The high half of a 64-bit counter (R44). -/
def hi32 (v : DWord) : Word := v.extractLsb' 32 32

/-- What a read of a register returns (R32 to R62). CMD reads 0 (R35); the HI halves read their latches (R63). -/
def State.regValue (s : State) : Reg → Word
  | .id => 0x53574131
  | .version => 0x00000007
  | .cmd => 0
  | .status => statusWord s
  | .irqEn => irqEnWord s
  | .errCause => errCauseWord s
  | .ckStatus => ckStatusWord s
  | .config => configWord s
  | .window => s.cfg.window
  | .maxRetry => s.cfg.maxRetry
  | .initRtt => s.cfg.initRtt
  | .initTo => s.cfg.initTo
  | .ports => s.cfg.ports
  | .txLen => s.cfg.txLen
  | .txStat => txStatWord s
  | .txNseg => s.tx.nseg
  | .txCur => s.tx.cur
  | .txSeq => s.tx.seq
  | .txAck => s.tx.ack
  | .estRtt => s.rtt.est
  | .devRtt => s.rtt.dev
  | .timeout => s.rtt.timeout
  | .rttSampleIn => s.rtt.sampleIn
  | .lastSample => s.rtt.lastSample
  | .segSent => s.tx.segSent
  | .bytesSent => s.tx.bytesSent
  | .retxCnt => s.tx.retxCnt
  | .retryCur => s.tx.retryCur
  | .elapsed => s.tx.elapsed
  | .sendTimeLo => lo32 s.tx.sendTime
  | .sendTimeHi => s.sendTimeHiL
  | .xferTimeLo => lo32 s.tx.xferTime
  | .xferTimeHi => s.xferTimeHiL
  | .nowLo => lo32 s.now
  | .nowHi => s.nowHiL
  | .rxStat => rxStatWord s
  | .rxBytes => s.rx.bytes
  | .rxSegs => s.rx.segs
  | .rxDropCksum => s.rx.dropCksum
  | .rxDropMalf => s.rx.dropMalf
  | .rxLastAck => s.rx.lastAck
  | .ckLen => s.ck.len
  | .ckResult => 0#16 ++ s.ck.result
  | .segPorts => s.ck.segPorts
  | .segSeq => s.ck.segSeq
  | .segAck => s.ck.segAck
  | .segFlags => s.ck.segFlags
  | .segCksum => 0#16 ++ s.ck.segCksum
  | .segLen => s.ck.segLen

/-- What a read of a register does besides: the three LO reads copy the high half into their latch; no other read changes
anything (R109). -/
def State.latchOnRead (s : State) (r : Reg) : State :=
  match r with
  | .nowLo => { s with nowHiL := hi32 s.now }
  | .sendTimeLo => { s with sendTimeHiL := hi32 s.tx.sendTime }
  | .xferTimeLo => { s with xferTimeHiL := hi32 s.tx.xferTime }
  | _ => s

/-- What storing v in an RW or RW-L register leaves (R442, R443): IRQ_EN takes v[7:0], CONFIG takes v[0], v[1] and v[15:8],
the others take all 32 bits. A register that stores nothing is left alone. -/
def State.storeReg (s : State) (r : Reg) (v : Word) : State :=
  match r with
  | .irqEn => { s with irqEn := v.extractLsb' 0 8 }
  | .config =>
    { s with cfg := { s.cfg with firstOvr := v.getLsbD 0, ackCheck := v.getLsbD 1, padByte := v.extractLsb' 8 8 } }
  | .window => { s with cfg := { s.cfg with window := v } }
  | .maxRetry => { s with cfg := { s.cfg with maxRetry := v } }
  | .initRtt => { s with cfg := { s.cfg with initRtt := v } }
  | .initTo => { s with cfg := { s.cfg with initTo := v } }
  | .ports => { s with cfg := { s.cfg with ports := v } }
  | .txLen => { s with cfg := { s.cfg with txLen := v } }
  | .rttSampleIn => { s with rtt := { s.rtt with sampleIn := v } }
  | .ckLen => { s with ck := { s.ck with len := v } }
  | .segPorts => { s with ck := { s.ck with segPorts := v } }
  | .segSeq => { s with ck := { s.ck with segSeq := v } }
  | .segAck => { s with ck := { s.ck with segAck := v } }
  | .segFlags => { s with ck := { s.ck with segFlags := v } }
  | _ => s

/-- A host write to a register other than CMD (R32, R106, R108, R441 to R443). -/
def State.writeReg (s : State) (r : Reg) (v : Word) : State :=
  match r.access with
  | .ro => s
  | .wo => s
  | .w1c => s.clearStatus v
  | .rw => s.storeReg r v
  | .rwl => if s.tx.state = .sending then s.setStatus .wrIgn else s.storeReg r v

/-- A window of the host address map onto a byte memory (R101). -/
structure Window where
  space : Space
  base : Nat
  size : Nat
  deriving DecidableEq, Repr

/-- The five windows of R101. -/
def windows (b : Config.Build) : List Window :=
  [{ space := .ckBuf, base := 0x01000, size := spaceSize b .ckBuf },
   { space := .txSegbuf, base := 0x02000, size := spaceSize b .txSegbuf },
   { space := .rxSegbuf, base := 0x03000, size := spaceSize b .rxSegbuf },
   { space := .txMem, base := 0x10000, size := spaceSize b .txMem },
   { space := .rxMem, base := 0x20000, size := spaceSize b .rxMem }]

/-- What an admitted host access reaches: a register, or bytes of a memory from an offset on. -/
inductive Target where
  | reg (r : Reg)
  | window (sp : Space) (offset : Nat)
  deriving DecidableEq, Repr

/-- Whether an access of n bytes at a lies whole inside a window. -/
def Window.holds (w : Window) (a n : Nat) : Bool := Nat.ble w.base a && Nat.ble (a + n) (w.base + w.size)

/-- The target of a host access of n bytes at a; none is a bus error (R103 to R105). A register takes 4 aligned bytes; a
window takes 1, 2 or 4 naturally aligned bytes that all lie inside it. -/
def hostTarget (b : Config.Build) (addr : HostAddr) (n : Nat) : Option Target :=
  if addr.toNat < 0x100 then
    if n = 4 ∧ addr.toNat % 4 = 0 then (Reg.ofOffset addr.toNat).map Target.reg else none
  else if (n = 1 ∨ n = 2 ∨ n = 4) ∧ addr.toNat % n = 0 then
    ((windows b).find? (fun w => w.holds addr.toNat n)).map (fun w => Target.window w.space (addr.toNat - w.base))
  else none

end Sys2Proof.Machine
end

