-- ==== Sys2Proof/Machine/Bus.lean ====
section
/-! DEFINITION. The HOST port (R107), the running of a command word (R430), and the step each kind of event takes (R9). -/

namespace Sys2Proof.Machine

/-- The HOST port's answer (R107). -/
def State.respond (s : State) (r : HostResponse) : State := { s with hostResp := some r }

/-- HostRead(a, n) (R107). -/
def hostRead (addr : HostAddr) (n : Nat) (s : State) : State :=
  match hostTarget s.build addr n with
  | none => s.respond .busError
  | some (.reg r) => (s.latchOnRead r).respond (.data (s.regValue r))
  | some (.window sp o) => s.respond (.data (hostValue (s.readBytes sp o n)))

/-- A host write that reaches a byte memory (R106 to R108). -/
def writeWindow (sp : Space) (o n : Nat) (v : Word) (s : State) : State :=
  match sp with
  | .ckBuf => s.writeBytes .ckBuf o (hostBytes n v)
  | .txMem => if s.tx.state = .sending then s.setStatus .wrIgn else s.writeBytes .txMem o (hostBytes n v)
  | .txSegbuf => s
  | .rxSegbuf => s
  | .rxMem => s

/-- A word written to CMD runs exactly one command, or raises CmdError(ILLEGAL) (R430). -/
def runCommand (w : Word) (s : State) : Host.Outcome State Fault Refusal :=
  match decode w with
  | .ok i => exec i s
  | .error _ => .next (s.cmdError .illegal)

/-- HostWrite(a, n, v) (R107). The bus answers an admitted write without error, whatever the command it runs reports (log
entry 18). -/
def hostWrite (addr : HostAddr) (n : Nat) (v : Word) (s : State) : Host.Outcome State Fault Refusal :=
  match hostTarget s.build addr n with
  | none => .next (s.respond .busError)
  | some (.reg .cmd) => runCommand v (s.respond .written)
  | some (.reg r) => .next ((s.writeReg r v).respond .written)
  | some (.window sp o) => .next ((writeWindow sp o n v s).respond .written)

/-- The step an event takes (R9). -/
def runEvent (e : Event) (s : State) : Host.Outcome State Fault Refusal :=
  match e with
  | .host (.read addr n) => .next (hostRead addr n s)
  | .host (.write addr n v) => hostWrite addr n v s
  | .tick => .next (onTick s)
  | .drx d => .next (onDrx d s)
  | .arx t => .next (onArx t s)
  | .rst => .next s.applyReset

/-- The host access that runs a command word: a 4-byte write to CMD (R171, R430). -/
def cmdWrite (w : Word) : Event := .host (.write 0x008 4 w)

/-- What the environment presents next: the first event placed in inputs, or with none left there a draw that nothing constrains,
which may be no event (R9, R10; log entries 1 and 23). -/
def State.nextEvent (s : State) : Option Event :=
  match s.inputs with
  | e :: _ => some e
  | [] => Config.environment s.turn

/-- The state once the environment has had its turn. -/
def State.afterTurn (s : State) : State :=
  match s.inputs with
  | _ :: rest => { s with inputs := rest }
  | [] => { s with turn := s.turn + 1 }

/-- Take the next event the environment presents; where it presents none the block waits (R9, R486). -/
def takeEvent (s : State) : Host.Outcome State Fault Refusal :=
  match s.nextEvent with
  | some e => runEvent e s.afterTurn
  | none => .next s.afterTurn

/-- The environment presents one clock cycle's events, to be taken after those already waiting (R476). -/
def State.present (s : State) (c : Cycle) : State := { s with inputs := s.inputs ++ c.events }

end Sys2Proof.Machine
end

