-- ==== Sys2Proof/Machine/Step.lean ====
section
/-! DEFINITION. One atomic step (R9), and the state in which the next step runs a given command word. -/

namespace Sys2Proof.Machine

/-- One step: the next event presented by the environment (R9). -/
def step (s : State) : Host.Outcome State Fault Refusal := takeEvent s

/-- The state s with a host write of the command word placed as the next event, so that the next step runs that command. The
block fetches nothing (R522): a command comes only as a host write to CMD (log entry 13). -/
def State.withFetchWord (s : State) (nbits w : Nat) : State := { s with inputs := cmdWrite (tableWord nbits w) :: s.inputs }

end Sys2Proof.Machine
end

