-- ==== Sys2Proof/Machine/Environment.lean ====
section
/-! DEFINITION. The environment of the block (R480 to R482, R487): the infinite executions of R9 and R10 under a schedule of events,
and the ack channel between the peer's RX and this block's ARX. -/

namespace Sys2Proof.Machine

/-- A schedule: what the environment presents at each time, an event or nothing (R10). Every schedule is one environment, so a
claim about all schedules is a claim about every interleaving, the endless ones among them (R487). -/
abbrev Schedule := Nat → Option Event

/-- The state after what the environment presents at one time; nothing presented changes nothing, and no event stops the block
(R9, R460). -/
def State.take (s : State) (p : Option Event) : State :=
  match p with
  | none => s
  | some e =>
    match runEvent e s with
    | .next t => t
    | .fault _ => s
    | .refused _ => s

/-- The infinite execution of a block under a schedule: the state at each time, state s at time 0. -/
def execution (ev : Schedule) (s : State) : Nat → State
  | 0 => s
  | n + 1 => (execution ev s n).take (ev n)

/-- The events presented before time n, oldest first. -/
def presentedBefore (ev : Schedule) (n : Nat) : List Event := (List.range n).filterMap ev

/-- The token an event carries to ARX, if it is a token's arrival. -/
def Event.token : Event → Option Word
  | .arx t => some t
  | .host _ => none
  | .tick => none
  | .drx _ => none
  | .rst => none

/-- The tokens that arrive on ARX before time n, oldest first. -/
def tokensReceived (ev : Schedule) (n : Nat) : List Word := (presentedBefore ev n).filterMap Event.token

/-- The tokens an execution puts on ATX before time n, oldest first: what each step appends to the trace. A reset that empties the
trace takes no token back out of the channel (R521). -/
def tokensSent (ev : Schedule) (s : State) : Nat → List Word
  | 0 => []
  | n + 1 => tokensSent ev s n ++ (execution ev s (n + 1)).atx.drop (execution ev s n).atx.length

/-- The ack channel of R482 from the one peer (schedule peerEv, from state peer) to this block (schedule ev, from state s); the
channel is empty at time 0. By default every token the peer's RX puts on ATX arrives on ARX exactly once, in order, unchanged,
after some finite delay. In a build with ACK_CHANNEL_LOSSY tokens may be missing, the rest still in order. A block looped back to
itself is its own peer (R484). -/
def AckChannel (ev : Schedule) (s : State) (peerEv : Schedule) (peer : State) : Prop :=
  if s.build.ackChannelLossy then ∀ n, (tokensReceived ev (n + 1)).Sublist (tokensSent peerEv peer n)
  else (∀ n, tokensReceived ev (n + 1) <+: tokensSent peerEv peer n) ∧
    ∀ n, ∃ m, tokensSent peerEv peer n <+: tokensReceived ev m

end Sys2Proof.Machine
end

