-- ==== Sys2Proof/Safety.lean ====
section
/-! DEFINITION. The terms claims are stated in: invariants of the machine, which host accesses and commands are legal, the
checksum and the header as plain numbers, and runs of the machine. Nothing in the machine calls a definition of this file. -/

namespace Sys2Proof.Safety

open Sys2Proof.Machine

/-! ## Invariants -/

/-- Every memory is in canonical form and lists only offsets it has (R60). -/
def MemoryCanonical (s : State) : Prop :=
  ∀ sp, (s.mem.get sp).wf = true ∧ ∀ c ∈ s.mem.get sp, c.1 < spaceSize s.build sp

/-- Each unit has a cause exactly when it is FAILED (R40, R41). -/
def CauseIffFailed (s : State) : Prop :=
  (s.tx.cause ≠ .none ↔ s.tx.state = .failed) ∧ (s.rx.cause ≠ .none ↔ s.rx.state = .failed)

/-- RX_BYTES never exceeds RX_MEM_SIZE (R59). -/
def OutputFits (s : State) : Prop := s.rx.bytes.toNat ≤ s.build.rxMemSize

/-- What holds of the sender while a segment awaits its acknowledgment: the input lies in TX_MEM, the registers name the
current segment of the segmentation, the statistics count the segments sent so far, the retained datagram is that segment, the
timer has not run past the timeout, it measures the time since the last transmission, and the retry bound is kept (R45, R301,
R303, R310, R322 to R325). -/
structure Awaiting (s : State) : Prop where
  input_fits : s.cfg.txLen.toNat ≤ s.build.txMemSize
  window_one : s.cfg.window = 1
  nseg_eq : s.tx.nseg.toNat = segCount s.cfg.txLen.toNat
  cur_lt : s.tx.cur.toNat < s.tx.nseg.toNat
  seq_eq : s.tx.seq.toNat = segSeq s.tx.cur.toNat
  ack_eq : s.tx.ack.toNat = segAck s.cfg.txLen.toNat s.tx.cur.toNat
  segSent_eq : s.tx.segSent.toNat = s.tx.cur.toNat + 1
  bytesSent_eq : s.tx.bytesSent = s.tx.ack
  retained_eq : s.retained = s.segment s.tx.cur.toNat
  timer : s.tx.elapsed = 0 ∨ s.tx.elapsed.toNat * 256 < s.rtt.timeout.toNat
  elapsed_eq : (s.now - s.tx.sendTime).toNat = s.tx.elapsed.toNat
  retries : s.cfg.maxRetry = 0 ∨ s.tx.retryCur.toNat ≤ s.cfg.maxRetry.toNat

/-- What holds of the sender's statistics once the transfer is done (R331). -/
structure Finished (s : State) : Prop where
  all_sent : s.tx.segSent = s.tx.nseg
  last : s.tx.cur.toNat + 1 = s.tx.nseg.toNat
  bytes : s.tx.bytesSent = s.tx.ack

/-- The invariant of the whole machine. -/
structure Inv (s : State) : Prop where
  build_wf : s.build.wf = true
  memory : MemoryCanonical s
  causes : CauseIffFailed s
  output : OutputFits s
  awaiting : s.tx.state = .sending → Awaiting s
  finished : s.tx.state = .done → Finished s
  datagrams : ∀ d ∈ s.dtx, d.length = 576

/-! ## Legal accesses and commands -/

/-- The bytes of the host space that a window maps (R101). -/
def MappedByte (b : Config.Build) (a : Nat) : Prop :=
  (0x01000 ≤ a ∧ a < 0x01240) ∨ (0x02000 ≤ a ∧ a < 0x02240) ∨ (0x03000 ≤ a ∧ a < 0x03240) ∨
  (0x10000 ≤ a ∧ a < 0x10000 + b.txMemSize) ∨ (0x20000 ≤ a ∧ a < 0x20000 + b.rxMemSize)

/-- The offsets at which the register map has a register (R32). -/
def registerOffsets : List Nat :=
  ([0x000, 0x004, 0x008, 0x00C, 0x010, 0x014, 0x018] : List Nat) ++
  ([0x020, 0x024, 0x028, 0x02C, 0x030, 0x034, 0x038] : List Nat) ++
  ([0x040, 0x044, 0x048, 0x04C, 0x050, 0x054, 0x058, 0x05C, 0x060, 0x064, 0x068, 0x06C] : List Nat) ++
  ([0x070, 0x074, 0x078, 0x07C, 0x080, 0x084, 0x088, 0x08C, 0x090] : List Nat) ++
  ([0x0A0, 0x0A4, 0x0A8, 0x0AC, 0x0B0, 0x0B4] : List Nat) ++
  ([0x0C0, 0x0C4, 0x0C8, 0x0CC, 0x0D0, 0x0D4, 0x0D8, 0x0DC] : List Nat)

/-- The admission rule in the words of R103 to R105: a register takes 4 aligned bytes; a window takes 1, 2 or 4 aligned bytes,
every one of them mapped. -/
def Admitted (b : Config.Build) (a n : Nat) : Prop :=
  (a ∈ registerOffsets ∧ n = 4) ∨
  (0x100 ≤ a ∧ (n = 1 ∨ n = 2 ∨ n = 4) ∧ a % n = 0 ∧ ∀ k, k < n → MappedByte b (a + k))

/-- The place of each kind of event in the order of R476. -/
def eventRank : Event → Nat
  | .rst => 1
  | .arx _ => 2
  | .drx _ => 3
  | .host _ => 4
  | .tick => 5

/-- The byte address of a host access. -/
def accessAddr : HostAccess → Nat
  | .read a _ => a.toNat
  | .write a _ _ => a.toNat

/-- The size of a host access. -/
def accessSize : HostAccess → Nat
  | .read _ n => n
  | .write _ n _ => n

/-- The first host address of each window (R101). -/
def windowBase : Space → Nat
  | .ckBuf => 0x01000
  | .txSegbuf => 0x02000
  | .rxSegbuf => 0x03000
  | .txMem => 0x10000
  | .rxMem => 0x20000

/-- The access of n bytes at addr lies in the window of memory sp, from offset o on, with an admitted size and alignment (R101,
R103). -/
def InWindow (b : Config.Build) (addr : HostAddr) (n : Nat) (sp : Space) (o : Nat) : Prop :=
  addr.toNat = windowBase sp + o ∧ (n = 1 ∨ n = 2 ∨ n = 4) ∧ addr.toNat % n = 0 ∧ o + n ≤ spaceSize b sp

/-- The states in which a command is legal (R433). -/
def Legal (s : State) : Instr → Prop
  | .nop => True
  | .txStart => s.tx.state = .building
  | .txClear => s.tx.state ≠ .sending
  | .rxStart => s.rx.state = .idle
  | .rxClear => s.rx.state ≠ .receiving
  | .ckCompute => True
  | .ckVerify => True
  | .segDecode => True
  | .segEncode => (s.ck.segAck - s.ck.segSeq).toNat ≤ 556
  | .rttInit => s.tx.state ≠ .sending
  | .rttSample => s.tx.state ≠ .sending

/-- The cause an illegal use of a command reports (R433, R463). -/
def errorCause : Instr → CmdCause
  | .segEncode => .length
  | .nop | .txStart | .txClear | .rxStart | .rxClear => .state
  | .ckCompute | .ckVerify | .segDecode => .state
  | .rttInit | .rttSample => .state

/-! ## Contents of the registers -/

/-- TX_STATE (R42). -/
def txStateNumber : TxState → Nat
  | .building => 0
  | .sending => 1
  | .done => 2
  | .failed => 3

/-- TX_CAUSE (R461). -/
def txCauseNumber : TxCause → Nat
  | .none => 0
  | .input => 1
  | .window => 2
  | .giveUp => 3

/-- RX_STATE (R43). -/
def rxStateNumber : RxState → Nat
  | .idle => 0
  | .receiving => 1
  | .done => 2
  | .failed => 3

/-- RX_CAUSE (R462). -/
def rxCauseNumber : RxCause → Nat
  | .none => 0
  | .overflow => 1

/-- CMD_CAUSE (R463). -/
def cmdCauseNumber : CmdCause → Nat
  | .none => 0
  | .illegal => 1
  | .state => 2
  | .length => 3

/-- What the register at each offset reads, as a number: each field times the weight of its lowest bit, and every bit the map does
not name 0 (R32 to R41, R44 to R63). -/
def registerContents (s : State) : List (Nat × Nat) :=
  ([(0x000, 0x53574131), (0x004, 7), (0x008, 0), (0x00C, s.status.toNat), (0x010, s.irqEn.toNat),
    (0x014, cmdCauseNumber s.cmdCause),
    (0x018, s.ck.verifyOk.toNat + 2 * s.ck.malformed.toNat + 4 * s.ck.lenBad.toNat)] : List (Nat × Nat)) ++
  ([(0x020, s.cfg.firstOvr.toNat + 2 * s.cfg.ackCheck.toNat + 256 * s.cfg.padByte.toNat), (0x024, s.cfg.window.toNat),
    (0x028, s.cfg.maxRetry.toNat), (0x02C, s.cfg.initRtt.toNat), (0x030, s.cfg.initTo.toNat), (0x034, s.cfg.ports.toNat),
    (0x038, s.cfg.txLen.toNat)] : List (Nat × Nat)) ++
  ([(0x040, txStateNumber s.tx.state + 16 * txCauseNumber s.tx.cause + 256 * s.rtt.first.toNat), (0x044, s.tx.nseg.toNat),
    (0x048, s.tx.cur.toNat), (0x04C, s.tx.seq.toNat), (0x050, s.tx.ack.toNat), (0x054, s.rtt.est.toNat),
    (0x058, s.rtt.dev.toNat), (0x05C, s.rtt.timeout.toNat), (0x060, s.rtt.sampleIn.toNat), (0x064, s.rtt.lastSample.toNat),
    (0x068, s.tx.segSent.toNat), (0x06C, s.tx.bytesSent.toNat)] : List (Nat × Nat)) ++
  ([(0x070, s.tx.retxCnt.toNat), (0x074, s.tx.retryCur.toNat), (0x078, s.tx.elapsed.toNat),
    (0x07C, s.tx.sendTime.toNat % 2 ^ 32), (0x080, s.sendTimeHiL.toNat), (0x084, s.tx.xferTime.toNat % 2 ^ 32),
    (0x088, s.xferTimeHiL.toNat), (0x08C, s.now.toNat % 2 ^ 32), (0x090, s.nowHiL.toNat)] : List (Nat × Nat)) ++
  ([(0x0A0, rxStateNumber s.rx.state + 16 * rxCauseNumber s.rx.cause), (0x0A4, s.rx.bytes.toNat), (0x0A8, s.rx.segs.toNat),
    (0x0AC, s.rx.dropCksum.toNat), (0x0B0, s.rx.dropMalf.toNat), (0x0B4, s.rx.lastAck.toNat)] : List (Nat × Nat)) ++
  ([(0x0C0, s.ck.len.toNat), (0x0C4, s.ck.result.toNat), (0x0C8, s.ck.segPorts.toNat), (0x0CC, s.ck.segSeq.toNat),
    (0x0D0, s.ck.segAck.toNat), (0x0D4, s.ck.segFlags.toNat), (0x0D8, s.ck.segCksum.toNat),
    (0x0DC, s.ck.segLen.toNat)] : List (Nat × Nat))

/-! ## Numbers of a buffer -/

/-- Byte i of a buffer as a number. -/
def num (b : Datagram) (i : Nat) : Nat := (b.getD i 0).toNat

/-- Byte i as the checksum reads it: the field's own two bytes count as zero (R201). -/
def covered (b : Datagram) (i : Nat) : Nat := if i = 16 ∨ i = 17 then 0 else num b i

/-- T of R204: the sum of the 288 little-endian words. -/
def wordTotal (b : Datagram) : Nat := ((List.range 288).map (fun i => covered b (2 * i) + 256 * covered b (2 * i + 1))).sum

/-- The closed form of R204. -/
def closedForm (t : Nat) : Nat := if t = 0 then 0 else 1 + (t - 1) % 65535

/-- A big-endian 16-bit number at offset i (R14). -/
def num16 (b : Datagram) (i : Nat) : Nat := 256 * num b i + num b (i + 1)

/-- A big-endian 32-bit number at offset i (R14). -/
def num32 (b : Datagram) (i : Nat) : Nat := 65536 * num16 b i + num16 b (i + 2)

/-- mod32(ackNumber - sequenceNumber) of a buffer (R158). -/
def trueLength (b : Datagram) : Nat := (2 ^ 32 - num32 b 4 + num32 b 8) % 2 ^ 32

/-- A datagram that passes RX's checks on its own contents: length, checksum, payload length (R376). -/
def Valid (d : Datagram) : Prop := d.length = 576 ∧ verify d = true ∧ trueLength d ≤ 556

/-- The true payload of a datagram (R385). -/
def payload (d : Datagram) : List Byte := (d.drop 20).take (trueLength d)

/-- d is the wire segment of R151 and R240: these ports, numbers and fin flag, headerSize 20, ackFlag 1, the reserved bytes 0,
len payload bytes given by byteOf, the filler byte after them, and the checksum of the whole. -/
structure WireSegment (d : Datagram) (src dst seq ack : Nat) (fin : Bool) (len : Nat) (byteOf : Nat → Byte) (pad : Byte) :
    Prop where
  length : d.length = 576
  source : num16 d 0 = src
  dest : num16 d 2 = dst
  sequence : num32 d 4 = seq
  acknowledge : num32 d 8 = ack
  headerSize : num16 d 12 = 20
  finByte : num d 14 = if fin then 1 else 0
  ackByte : num d 15 = 1
  checksum : num16 d 16 = closedForm (wordTotal d)
  reserved : num d 18 = 0 ∧ num d 19 = 0
  body : ∀ k, k < 556 → d.getD (20 + k) 0 = if k < len then byteOf k else pad

/-! ## Runs -/

/-- Run the same command k times. -/
def repeatCommand (i : Instr) : Nat → State → Host.Outcome State Fault Refusal
  | 0, s => .next s
  | k + 1, s =>
    match exec i s with
    | .next t => repeatCommand i k t
    | .fault r => .fault r
    | .refused r => .refused r

/-- The tick at which a wait that begins with ELAPSED = 0 times out: max(1, ceil(TIMEOUT / 256)) (R323). -/
def timeoutTick (timeout : Word) : Nat := max 1 ((timeout.toNat + 255) / 256)

/-- Take a list of events in order, presented one after another. -/
def afterEvents : List Event → State → State
  | [], s => s
  | e :: es, s => afterEvents es (s.take (some e))

/-- One round trip of a block looped back to itself over a perfect channel (R392, R484): a ticks pass, the newest datagram on
DTX arrives on DRX, b ticks pass, the newest token on ATX arrives on ARX. -/
def roundTrip (gap : Nat × Nat) (s : State) : State :=
  let s1 := afterEvents (List.replicate gap.1 Event.tick) s
  let s2 := afterEvents [Event.drx (s1.dtx.getLastD [])] s1
  let s3 := afterEvents (List.replicate gap.2 Event.tick) s2
  afterEvents [Event.arx (s3.atx.getLastD 0)] s3

end Sys2Proof.Safety
end

