-- ==== Sys2Proof/Certificates/Slice0/Obligations.lean ====
section
/-! DEFINITION. The statements for the provers. Each formalises rules of the spec, named in its docstring. -/

open Sys2Proof Sys2Proof.Machine Sys2Proof.Safety

/-! ## Command words -/

/-- R166: each word of the command map decodes to the command of its row. -/
def Obligations.CommandMapDecodes : Prop :=
  decode 0x00000000#32 = .ok .nop ∧ decode 0x00000001#32 = .ok .txStart ∧ decode 0x00000002#32 = .ok .txClear ∧
  decode 0x00000003#32 = .ok .rxStart ∧ decode 0x00000004#32 = .ok .rxClear ∧ decode 0x00000010#32 = .ok .ckCompute ∧
  decode 0x00000011#32 = .ok .ckVerify ∧ decode 0x00000012#32 = .ok .segDecode ∧ decode 0x00000013#32 = .ok .segEncode ∧
  decode 0x00000020#32 = .ok .rttInit ∧ decode 0x00000021#32 = .ok .rttSample

/-- R166: decoding the word of a well-formed command gives it back. -/
def Obligations.DecodeOfEncodeIsIdentity : Prop := ∀ i : Instr, i.wf = true → decode (encode i) = .ok i

/-- R165, R166, R167: a word decodes to a command exactly when it is that command's word; so every other of the 2^32 words is
rejected. -/
def Obligations.DecodableWordsAreTheCommandMap : Prop := ∀ (w : Word) (i : Instr), decode w = .ok i ↔ w = encode i

/-- R430: a 4-byte write of a command's word to CMD runs that command, on the state whose event is taken and whose write is
answered (the fields inputs and hostResp are the model's own, log entries 1 and 5). -/
def Obligations.StepRunsTheDecodedCommand : Prop :=
  ∀ (s : State) (rest : List Event) (w : Word) (i : Instr), decode w = .ok i →
    (s.inputs = cmdWrite w :: rest → step s = exec i { s with inputs := rest, hostResp := some .written }) ∧
    step (s.withFetchWord 32 w.toNat) = exec i { s with hostResp := some .written }

/-- R167, R430, R432: any other word written to CMD raises CmdError(ILLEGAL): STATUS.CMD_ERR and CMD_CAUSE, nothing else (inputs and
hostResp are the model's own, log entries 1, 5 and 18). -/
def Obligations.IllegalWordOnlyReports : Prop :=
  ∀ (s : State) (rest : List Event) (w : Word), s.inputs = cmdWrite w :: rest → (∀ i, w ≠ encode i) →
    step s = .next { s with
      inputs := rest, hostResp := some .written, status := s.status ||| 0x40#8, cmdCause := .illegal }

/-- R9, R10: a step takes the next event placed in inputs; with inputs used up it takes what the environment draws, an event that
nothing constrains or none, and the machine waits where it is none (the model's choices, log entries 1 and 23). -/
def Obligations.StepTakesTheNextEvent : Prop :=
  ∀ s : State,
    (∀ (e : Event) (rest : List Event), s.inputs = e :: rest → step s = runEvent e { s with inputs := rest }) ∧
    (s.inputs = [] → step s = match Config.environment s.turn with
      | some e => runEvent e { s with turn := s.turn + 1 }
      | none => .next { s with turn := s.turn + 1 })

/-- R476: RST discards the other events of its cycle; else every event of the cycle is taken, in the order ARX, DRX, host, TICK. That a
cycle's events wait behind those already placed in inputs is the model's choice (log entries 1 and 10). -/
def Obligations.SimultaneousEventOrder : Prop :=
  ∀ (s : State) (c : Cycle), ∃ es : List Event, (s.present c).inputs = s.inputs ++ es ∧
    (c.rst = true → es = [.rst]) ∧
    (c.rst = false → es.Pairwise (fun e f => eventRank e < eventRank f) ∧
      (∀ t, .arx t ∈ es ↔ c.arx = some t) ∧ (∀ d, .drx d ∈ es ↔ c.drx = some d) ∧ (∀ h, .host h ∈ es ↔ c.host = some h) ∧
      (.tick ∈ es ↔ c.tick = true) ∧ .rst ∉ es)

/-! ## Reset -/

/-- R32, R66: what a host read of each register returns after reset (one case: the default build). -/
def Obligations.ResetRegisterValues : Prop :=
  ∀ o ∈ registerOffsets, ∃ t, runEvent (.host (.read (BitVec.ofNat 18 o) 4)) State.reset = .next t ∧
    t.hostResp = some (.data
      (if o = 0x000 then 0x53574131#32 else if o = 0x004 then 0x00000007#32 else if o = 0x020 then 0x00000001#32
       else if o = 0x024 then 0x00000001#32 else if o = 0x040 then 0x00000100#32 else if o = 0x0C0 then 0x00000240#32
       else 0x00000000#32))

/-- R520, R521: RST in any state gives every piece of the spec's state its reset value, with IRQ low, the traces empty, and in
every memory byte a draw that nothing constrains. The pending events, the environment's turn, the reset count and the build are
the model's own fields (log entries 1, 3, 4, 15, 23). -/
def Obligations.RstResetsEverything : Prop :=
  ∀ (s : State) (rest : List Event), s.inputs = .rst :: rest → ∃ t, step s = .next t ∧
    t.cfg = State.reset.cfg ∧ t.tx = State.reset.tx ∧ t.rtt = State.reset.rtt ∧ t.rx = State.reset.rx ∧ t.ck = State.reset.ck ∧
    t.status = 0 ∧ t.irqEn = 0 ∧ t.cmdCause = .none ∧ t.now = 0 ∧ t.nowHiL = 0 ∧ t.sendTimeHiL = 0 ∧ t.xferTimeHiL = 0 ∧
    t.dtx = [] ∧ t.atx = [] ∧ t.log = [] ∧ t.irq = false ∧ t.inputs = rest ∧ t.turn = s.turn ∧ t.build = s.build ∧
    ∀ sp a, t.readByte sp a = Config.drawByte (s.resets + 1) sp a

/-! ## The host bus

In these statements inputs and hostResp are the model's own fields (log entries 1 and 5): the access is taken from inputs, its
answer is in hostResp. -/

/-- R105, R465: a host access that R103 to R105 do not admit gets an error response and changes nothing else (inputs
and hostResp: log entries 1, 5). -/
def Obligations.RejectedAccessIsBusError : Prop :=
  ∀ (s : State) (rest : List Event) (h : HostAccess), s.build.wf = true → s.inputs = .host h :: rest →
    ¬ Admitted s.build (accessAddr h) (accessSize h) →
    step s = .next { s with inputs := rest, hostResp := some .busError }

/-- R32, R44, R63, R106, R109: an admitted read is answered with data. A read of a register answers, in every state, that register's
current value, each field at the bits the register map gives it and every other bit 0 (registerContents, whose offsets are those of
the map). Of all state only the three high-half latches can change: the read of NOW_LO, SEND_TIME_LO or XFER_TIME_LO copies the high
half of its counter. The LO reads return the low half, the HI reads the latch (inputs and hostResp: log entries 1, 5). -/
def Obligations.OnlyThreeReadsLatch : Prop :=
  ∀ (s : State) (rest : List Event) (addr : HostAddr) (n : Nat), s.build.wf = true →
    s.inputs = .host (.read addr n) :: rest → Admitted s.build addr.toNat n → ∃ v : Word,
    (registerContents s).map Prod.fst = registerOffsets ∧ (∀ x, (addr.toNat, x) ∈ registerContents s → v.toNat = x) ∧
    step s = .next { s with
      inputs := rest
      hostResp := some (.data v)
      nowHiL := if addr = 0x08C then s.now.extractLsb' 32 32 else s.nowHiL
      sendTimeHiL := if addr = 0x07C then s.tx.sendTime.extractLsb' 32 32 else s.sendTimeHiL
      xferTimeHiL := if addr = 0x084 then s.tx.xferTime.extractLsb' 32 32 else s.xferTimeHiL } ∧
    (addr = 0x08C → v = s.now.extractLsb' 0 32) ∧ (addr = 0x090 → v = s.nowHiL) ∧
    (addr = 0x07C → v = s.tx.sendTime.extractLsb' 0 32) ∧ (addr = 0x080 → v = s.sendTimeHiL) ∧
    (addr = 0x084 → v = s.tx.xferTime.extractLsb' 0 32) ∧ (addr = 0x088 → v = s.xferTimeHiL)

/-- R102, R107: a read of n bytes of a memory window returns them little-endian, byte o+k on data bits [8k+7:8k] with the bits above
zero (log entry 6), and changes nothing (inputs and hostResp: log entries 1, 5). -/
def Obligations.WindowReadIsLittleEndian : Prop :=
  ∀ (s : State) (rest : List Event) (addr : HostAddr) (n : Nat) (sp : Space) (o : Nat), s.build.wf = true →
    s.inputs = .host (.read addr n) :: rest → InWindow s.build addr n sp o → ∃ v : Word,
    step s = .next { s with inputs := rest, hostResp := some (.data v) } ∧
    v.toNat = ((List.range n).map (fun k => 256 ^ k * (s.readByte sp (o + k)).toNat)).sum

/-- R102, R107: a write of n bytes to CK_BUF, or to TX_MEM outside SENDING, stores data bits [8k+7:8k] in byte o+k; every other
byte of every memory reads as before and nothing else changes (inputs and hostResp: log entries 1, 5). -/
def Obligations.WindowWriteStoresItsBytes : Prop :=
  ∀ (s : State) (rest : List Event) (addr : HostAddr) (n : Nat) (v : Word) (sp : Space) (o : Nat), s.build.wf = true →
    s.inputs = .host (.write addr n v) :: rest → InWindow s.build addr n sp o →
    (sp = .ckBuf ∨ (sp = .txMem ∧ s.tx.state ≠ .sending)) → ∃ t,
    step s = .next t ∧ t = { s with inputs := rest, hostResp := some .written, mem := t.mem } ∧
    (∀ k, k < n → t.readByte sp (o + k) = v.extractLsb' (8 * k) 8) ∧
    ∀ sp' a, ¬ (sp' = sp ∧ o ≤ a ∧ a < o + n) → t.readByte sp' a = s.readByte sp' a

/-- R65, R108: while SENDING, a write to an RW-L register or to TX_MEM stores nothing and sets STATUS.WR_IGN
(inputs and hostResp: log entries 1, 5). -/
def Obligations.LockedWritesAreIgnored : Prop :=
  ∀ (s : State) (rest : List Event) (addr : HostAddr) (n : Nat) (v : Word), s.build.wf = true →
    s.inputs = .host (.write addr n v) :: rest → s.tx.state = .sending →
    ((n = 4 ∧ addr.toNat ∈ [0x020, 0x024, 0x028, 0x02C, 0x030, 0x034, 0x038]) ∨ ∃ o, InWindow s.build addr n .txMem o) →
    step s = .next { s with inputs := rest, hostResp := some .written, status := s.status ||| 0x80#8 }

/-- R106: a write to a read-only register or a read-only window is ignored and answered without error (inputs and
hostResp: log entries 1, 5). -/
def Obligations.ReadOnlyWritesAreIgnored : Prop :=
  ∀ (s : State) (rest : List Event) (addr : HostAddr) (n : Nat) (v : Word), s.build.wf = true →
    s.inputs = .host (.write addr n v) :: rest →
    ((∃ r : Reg, r.access = .ro ∧ n = 4 ∧ addr.toNat = r.offset) ∨
      ∃ sp o, (sp = .txSegbuf ∨ sp = .rxSegbuf ∨ sp = .rxMem) ∧ InWindow s.build addr n sp o) →
    step s = .next { s with inputs := rest, hostResp := some .written }

/-- R442, R443: a write of v to an RW register, or to an RW-L register outside SENDING, makes that register read v in the bits
it stores (CONFIG 0, 1 and 15:8; IRQ_EN 7:0; the others all 32) and 0 in the rest; every other register reads as before, and
no memory byte or output changes (inputs and hostResp: log entries 1, 5). -/
def Obligations.RegisterWriteReadsBack : Prop :=
  ∀ (s : State) (rest : List Event) (r : Reg) (v : Word),
    s.inputs = .host (.write (BitVec.ofNat 18 r.offset) 4 v) :: rest →
    (r.access = .rw ∨ (r.access = .rwl ∧ s.tx.state ≠ .sending)) → ∃ t, step s = .next t ∧
    t.regValue r = (v &&& (if r = .config then 0x0000FF03#32 else if r = .irqEn then 0x000000FF#32 else 0xFFFFFFFF#32)) ∧
    (∀ q, q ≠ r → t.regValue q = s.regValue q) ∧ t.tx = s.tx ∧ t.rx = s.rx ∧ t.now = s.now ∧ t.mem = s.mem ∧ t.dtx = s.dtx ∧
    t.atx = s.atx ∧ t.log = s.log ∧ t.resets = s.resets ∧ t.build = s.build ∧ t.turn = s.turn ∧ t.inputs = rest ∧
    t.hostResp = some .written

/-- R441: a 4-byte write of v to STATUS clears the bits of v[7:0] that are 1 and leaves the others; a write without such a bit
changes no bit; nothing else changes (hostResp: log entry 5), and IRQ follows at
once. -/
def Obligations.StatusWriteClearsOnes : Prop :=
  ∀ (s : State) (v : Word), ∃ t, runEvent (.host (.write 0x00C 4 v)) s = .next t ∧
    t = { s with hostResp := some .written, status := t.status } ∧
    (∀ i, i < 8 → t.status.getLsbD i = (s.status.getLsbD i && !v.getLsbD i)) ∧ (v.extractLsb' 0 8 = 0 → t.status = s.status) ∧
    t.irq = ((t.status &&& s.irqEn) != 0)

/-- R37, R470: IRQ is the OR over the eight bits of STATUS AND IRQ_EN. -/
def Obligations.InterruptIsEnabledStatus : Prop :=
  ∀ s : State, s.irq = true ↔ ∃ i, i < 8 ∧ s.status.getLsbD i = true ∧ s.irqEn.getLsbD i = true

/-! ## Legal and illegal commands -/

/-- R432, R433, R463: a command used where it is not legal raises CmdError with the cause STATE, or LENGTH for SEG_ENCODE, and
changes nothing else. -/
def Obligations.IllegalUseOnlyReports : Prop :=
  ∀ (i : Instr) (s : State), ¬ Legal s i →
    exec i s = .next { s with status := s.status ||| 0x40#8, cmdCause := errorCause i }

/-- R432, R433: a command used where it is legal completes and raises no command error: CMD_CAUSE and STATUS.CMD_ERR stand, and
so do NOW, the latches, IRQ_EN, the receiver's outputs and the configuration. -/
def Obligations.LegalUseRaisesNoCommandError : Prop :=
  ∀ (i : Instr) (s : State), Legal s i → ∃ t, exec i s = .next t ∧ t.cmdCause = s.cmdCause ∧
    t.status.getLsbD 6 = s.status.getLsbD 6 ∧ t.cfg = s.cfg ∧ t.now = s.now ∧ t.nowHiL = s.nowHiL ∧
    t.sendTimeHiL = s.sendTimeHiL ∧ t.xferTimeHiL = s.xferTimeHiL ∧ t.irqEn = s.irqEn ∧ t.atx = s.atx ∧ t.log = s.log ∧
    t.mem.txMem = s.mem.txMem ∧ t.mem.rxMem = s.mem.rxMem ∧ t.mem.rxSegbuf = s.mem.rxSegbuf ∧ t.hostResp = s.hostResp ∧
    t.inputs = s.inputs ∧ t.turn = s.turn ∧ t.resets = s.resets ∧ t.build = s.build

/-- R440: the word 0 is NOP, which changes nothing in any state; the word 0x00000100 is no command. -/
def Obligations.NopChangesNothing : Prop :=
  decode 0x00000000#32 = .ok .nop ∧ (∀ s : State, exec .nop s = .next s) ∧ ∀ i, decode 0x00000100#32 ≠ .ok i

/-! ## Checksum and codec -/

/-- R204: CKSUM of a 576-byte buffer is the closed form of the sum T of its 288 little-endian words, T at most 288 * 65535; it is
0 exactly when every covered byte is 0, and 0xFFFF when T is a nonzero multiple of 65535. -/
def Obligations.ChecksumClosedForm : Prop :=
  ∀ b : Datagram, b.length = 576 → (cksum b).toNat = closedForm (wordTotal b) ∧ wordTotal b ≤ 288 * 65535 ∧
    ((cksum b).toNat = 0 ↔ ∀ i, i < 576 → covered b i = 0) ∧
    (wordTotal b ≠ 0 → wordTotal b % 65535 = 0 → cksum b = 0xFFFF#16)

/-- R206: changing any one byte makes a segment that verified fail, and changing any one covered byte changes the checksum. -/
def Obligations.SingleByteChangeIsDetected : Prop :=
  ∀ (b : Datagram) (i : Nat) (x : Byte), b.length = 576 → i < 576 → x ≠ b.getD i 0 →
    (i ≠ 16 → i ≠ 17 → cksum (b.set i x) ≠ cksum b) ∧ (verify b = true → verify (b.set i x) = false)

/-- R207, R240, R243: what BUILD makes of any operands is the wire segment of R151, has a nonzero checksum, and verifies. -/
def Obligations.BuiltSegmentsVerify : Prop :=
  ∀ (src dst : Half) (seq ack : Word) (fin : Bool) (p : List Byte) (pad : Byte), p.length ≤ 556 →
    WireSegment (buildSeg src dst seq ack fin p pad) src.toNat dst.toNat seq.toNat ack.toNat fin p.length
      (fun k => p.getD k 0) pad ∧
    num16 (buildSeg src dst seq ack fin p pad) 16 ≠ 0 ∧ verify (buildSeg src dst seq ack fin p pad) = true

/-- R211, R212: CK_COMPUTE puts the checksum of CK_BUF in CK_RESULT and changes nothing else, whatever bytes 16 and 17 hold. -/
def Obligations.CkComputeResult : Prop :=
  ∀ s : State, ∃ c : Half, exec .ckCompute s = .next { s with ck := { s.ck with result := c } } ∧
    c.toNat = closedForm (wordTotal (s.readBytes .ckBuf 0 576)) ∧
    ∀ x y : Byte, exec .ckCompute (s.writeBytes .ckBuf 16 [x, y]) =
      .next { s.writeBytes .ckBuf 16 [x, y] with ck := { s.ck with result := c } }

/-- R221: CK_VERIFY with CK_LEN = 576 records the checksum and whether it is the embedded one; with any other CK_LEN it reports
MALFORMED; nothing else changes. -/
def Obligations.CkVerifyResult : Prop :=
  ∀ s : State,
    (s.ck.len ≠ 576 → exec .ckVerify s = .next { s with ck := { s.ck with malformed := true, verifyOk := false } }) ∧
    (s.ck.len = 576 → ∃ c : Half, c.toNat = closedForm (wordTotal (s.readBytes .ckBuf 0 576)) ∧
      exec .ckVerify s = .next { s with
        ck := { s.ck with
          result := c, malformed := false, verifyOk := decide (c.toNat = num16 (s.readBytes .ckBuf 0 576) 16) } })

/-- R231: SEG_DECODE with CK_LEN = 576 puts the fields of CK_BUF in the SEG_* registers, most significant byte first; with any
other CK_LEN it reports MALFORMED; nothing else changes. -/
def Obligations.SegDecodeResult : Prop :=
  ∀ s : State,
    (s.ck.len ≠ 576 → exec .segDecode s = .next { s with ck := { s.ck with malformed := true, lenBad := false } }) ∧
    (s.ck.len = 576 → ∃ (ports seq ack flags len : Word) (c : Half),
      exec .segDecode s = .next { s with
        ck := { s.ck with
          segPorts := ports, segSeq := seq, segAck := ack, segFlags := flags, segCksum := c, segLen := len,
          lenBad := decide (len.toNat > 556), malformed := false } } ∧
      ports.toNat = 65536 * num16 (s.readBytes .ckBuf 0 576) 2 + num16 (s.readBytes .ckBuf 0 576) 0 ∧
      seq.toNat = num32 (s.readBytes .ckBuf 0 576) 4 ∧ ack.toNat = num32 (s.readBytes .ckBuf 0 576) 8 ∧
      flags.toNat = 65536 * num16 (s.readBytes .ckBuf 0 576) 12 + 256 * num (s.readBytes .ckBuf 0 576) 15 +
        num (s.readBytes .ckBuf 0 576) 14 ∧
      c.toNat = num16 (s.readBytes .ckBuf 0 576) 16 ∧ len.toNat = trueLength (s.readBytes .ckBuf 0 576))

/-- R241: SEG_ENCODE with p = mod32(SEG_ACK - SEG_SEQ) ≤ 556 makes CK_BUF the wire segment of the SEG_* fields with the p bytes
the host placed at CK_BUF[20..] as its payload, sets CK_LEN, CK_RESULT, SEG_CKSUM and SEG_LEN, and changes nothing else. -/
def Obligations.SegEncodeBuildsInPlace : Prop :=
  ∀ s : State, (s.ck.segAck - s.ck.segSeq).toNat ≤ 556 → ∃ (t : State) (c : Half), exec .segEncode s = .next t ∧
    t = { s with
      mem := t.mem
      ck := { s.ck with len := 576, result := c, segCksum := c, segLen := s.ck.segAck - s.ck.segSeq } } ∧
    c.toNat = num16 (t.readBytes .ckBuf 0 576) 16 ∧
    WireSegment (t.readBytes .ckBuf 0 576) (s.ck.segPorts.toNat % 65536) (s.ck.segPorts.toNat / 65536) s.ck.segSeq.toNat
      s.ck.segAck.toNat (decide (s.ck.segFlags.toNat % 256 ≠ 0)) (s.ck.segAck - s.ck.segSeq).toNat
      (fun k => s.readByte .ckBuf (20 + k)) s.cfg.padByte ∧
    ∀ sp a, sp ≠ .ckBuf ∨ 576 ≤ a → t.readByte sp a = s.readByte sp a

/-- R242: SEG_DECODE after SEG_ENCODE gives back SEG_PORTS, SEG_SEQ and SEG_ACK, the built flags and the length, and CK_VERIFY
then finds the checksum right; the payload bytes stand. -/
def Obligations.EncodeDecodeVerifyRoundTrip : Prop :=
  ∀ s : State, (s.ck.segAck - s.ck.segSeq).toNat ≤ 556 → ∃ t u v, exec .segEncode s = .next t ∧ exec .segDecode t = .next u ∧
    exec .ckVerify u = .next v ∧ u.ck.segPorts = s.ck.segPorts ∧ u.ck.segSeq = s.ck.segSeq ∧ u.ck.segAck = s.ck.segAck ∧
    u.ck.segFlags = (if s.ck.segFlags.toNat % 256 = 0 then 0x00140100#32 else 0x00140101#32) ∧
    u.ck.segLen = s.ck.segAck - s.ck.segSeq ∧ u.ck.lenBad = false ∧ u.ck.malformed = false ∧ v.ck.verifyOk = true ∧
    v.ck.malformed = false ∧
    ∀ k, k < (s.ck.segAck - s.ck.segSeq).toNat → v.readByte .ckBuf (20 + k) = s.readByte .ckBuf (20 + k)

/-! ## RTT estimator -/

/-- R260: the word 0x20 is RTT_INIT; while SENDING it raises CmdError(STATE); else it copies INIT_RTT and INIT_TO, clears DEV_RTT and
sets RTT_FIRST; nothing else changes. -/
def Obligations.RttInitResult : Prop :=
  decode 0x00000020#32 = .ok .rttInit ∧ ∀ s : State,
    (s.tx.state = .sending → exec .rttInit s = .next { s with status := s.status ||| 0x40#8, cmdCause := .state }) ∧
    (s.tx.state ≠ .sending → exec .rttInit s = .next { s with
      rtt := { s.rtt with est := s.cfg.initRtt, dev := 0, timeout := s.cfg.initTo, first := true } })

/-- R251 to R256, R258, R261: RTT_SAMPLE outside SENDING computes the update in exact integers: the deviation from the old mean,
then the mean, then the saturated timeout; no result wraps; nothing else changes. -/
def Obligations.RttSampleIsExact : Prop :=
  ∀ s : State, s.tx.state ≠ .sending → ∃ (est dev timeout : Word) (q : Nat),
    exec .rttSample s = .next { s with
      rtt := { s.rtt with est := est, dev := dev, timeout := timeout, first := false, lastSample := s.rtt.sampleIn } } ∧
    q = 256 * min s.rtt.sampleIn.toNat 0x00FFFFFF ∧
    dev.toNat = (3 * s.rtt.dev.toNat + (q - s.rtt.est.toNat) + (s.rtt.est.toNat - q)) / 4 ∧
    est.toNat = (if s.cfg.firstOvr = true ∧ s.rtt.first = true then q else (7 * s.rtt.est.toNat + q) / 8) ∧
    timeout.toNat = min (est.toNat + 4 * dev.toNat) 0xFFFFFFFF

/-- R259, override policy: fed a constant sample of T < 2^24 ticks, EST_RTT is T from the first sample on, DEV_RTT falls strictly
after it while it is positive, and from some sample on DEV_RTT is 0 and TIMEOUT is T. -/
def Obligations.OverridePolicyConverges : Prop :=
  ∀ s : State, s.tx.state ≠ .sending → s.cfg.firstOvr = true → s.rtt.first = true → s.rtt.sampleIn.toNat < 2 ^ 24 →
    (∀ k, ∃ t u, repeatCommand .rttSample (k + 1) s = .next t ∧ repeatCommand .rttSample (k + 2) s = .next u ∧
      t.rtt.est.toNat = 256 * s.rtt.sampleIn.toNat ∧ (0 < t.rtt.dev.toNat → u.rtt.dev.toNat < t.rtt.dev.toNat)) ∧
    ∃ n, ∀ k, n ≤ k → ∃ t, repeatCommand .rttSample k s = .next t ∧ t.rtt.est.toNat = 256 * s.rtt.sampleIn.toNat ∧
      t.rtt.dev = 0 ∧ t.rtt.timeout = t.rtt.est

/-- R259, blend policy: the distance to the sample becomes floor(7d/8) from above and ceil(7d/8) from below. -/
def Obligations.BlendPolicyDistance : Prop :=
  ∀ (s : State) (d : Nat), s.tx.state ≠ .sending → ¬ (s.cfg.firstOvr = true ∧ s.rtt.first = true) →
    s.rtt.sampleIn.toNat < 2 ^ 24 → ∃ t, exec .rttSample s = .next t ∧
    (s.rtt.est.toNat = 256 * s.rtt.sampleIn.toNat + d → t.rtt.est.toNat = 256 * s.rtt.sampleIn.toNat + 7 * d / 8) ∧
    (s.rtt.est.toNat + d = 256 * s.rtt.sampleIn.toNat → t.rtt.est.toNat + (7 * d + 7) / 8 = 256 * s.rtt.sampleIn.toNat)

/-! ## Sender -/

/-- R304: for every input of at most 65536 bytes there are at most 118 segments; all but the last carry 556 bytes and end where the
next starts; the last carries the rest, 1 to 556 bytes if there are any, and ends at L; exactly the last is marked fin; no number
reaches 2^17. For L = 1678 these are the four segments of the source. -/
def Obligations.SegmentationCoversTheStream : Prop :=
  (∀ len : Nat, len ≤ 65536 → 1 ≤ segCount len ∧ segCount len ≤ 118 ∧
    (∀ k, k + 1 < segCount len → segAck len k = segSeq (k + 1) ∧ segLen len k = 556) ∧
    segAck len (segCount len - 1) = len ∧ segLen len (segCount len - 1) = len - 556 * (segCount len - 1) ∧
    (0 < len → 1 ≤ segLen len (segCount len - 1) ∧ segLen len (segCount len - 1) ≤ 556) ∧
    ∀ k, k < segCount len → (segFin (segCount len) k = true ↔ k = segCount len - 1) ∧ segSeq k < 2 ^ 17 ∧ segAck len k < 2 ^ 17) ∧
  (List.range (segCount 1678)).map (fun k => (segSeq k, segAck 1678 k, segFin (segCount 1678) k)) =
    [(0, 556, false), (556, 1112, false), (1112, 1668, false), (1668, 1678, true)]

/-- R250, R300, R302, R303, R310: TX_START in BUILDING with a fitting input and WINDOW = 1 initialises the session, sends segment
0, keeps it in TX_SEGBUF and enters SENDING; no other byte of memory, no other register and no other output changes. -/
def Obligations.TxStartSendsTheFirstSegment : Prop :=
  ∀ s : State, s.build.wf = true → s.tx.state = .building → s.cfg.txLen.toNat ≤ s.build.txMemSize → s.cfg.window = 1 →
    ∃ (t : State) (d : Datagram), exec .txStart s = .next t ∧
    t = { s with
      mem := t.mem
      dtx := s.dtx ++ [d]
      rtt := { s.rtt with est := s.cfg.initRtt, dev := 0, timeout := s.cfg.initTo, first := true }
      tx := { state := .sending, cause := s.tx.cause, nseg := BitVec.ofNat 32 (max 1 ((s.cfg.txLen.toNat + 555) / 556)),
              cur := 0, seq := 0, ack := BitVec.ofNat 32 (min 556 s.cfg.txLen.toNat), segSent := 1,
              bytesSent := BitVec.ofNat 32 (min 556 s.cfg.txLen.toNat), retxCnt := 0, retryCur := 0, elapsed := 0,
              sendTime := s.now, startTime := s.now, xferTime := 0 } } ∧
    t.readBytes .txSegbuf 0 576 = d ∧
    WireSegment d (s.cfg.ports.toNat % 65536) (s.cfg.ports.toNat / 65536) 0 (min 556 s.cfg.txLen.toNat)
      (decide (s.cfg.txLen.toNat ≤ 556)) (min 556 s.cfg.txLen.toNat) (fun k => s.readByte .txMem k) s.cfg.padByte ∧
    ∀ sp a, sp ≠ .txSegbuf ∨ 576 ≤ a → t.readByte sp a = s.readByte sp a

/-- R301: TX_START in BUILDING with a too long input faults INPUT, code 1, whatever WINDOW holds; else with WINDOW other than 1 it
faults WINDOW, code 2. The statistics are cleared, TX is FAILED with the cause, STATUS.TX_FAIL is set, no datagram is emitted and
nothing else changes. -/
def Obligations.TxStartFaults : Prop :=
  ∀ s : State, s.tx.state = .building → (s.cfg.txLen.toNat > s.build.txMemSize ∨ s.cfg.window ≠ 1) → ∃ t,
    exec .txStart s = .next t ∧
    t = { s with
      status := s.status ||| 0x02#8
      tx := { s.tx with
        state := .failed, cause := if s.cfg.txLen.toNat > s.build.txMemSize then .input else .window,
        segSent := 0, bytesSent := 0, retxCnt := 0, retryCur := 0, elapsed := 0, xferTime := 0, cur := 0, nseg := 0, seq := 0,
        ack := 0 } } ∧
    (t.regValue .txStat).extractLsb' 4 4 = (if s.cfg.txLen.toNat > s.build.txMemSize then 1#4 else 2#4) ∧
    (t.regValue .txStat).extractLsb' 0 2 = 3#2

/-- R330: the word 2 is TX_CLEAR; while SENDING it raises CmdError(STATE); else it returns TX to BUILDING with no cause; nothing
else changes. -/
def Obligations.TxClearReturnsToBuilding : Prop :=
  decode 0x00000002#32 = .ok .txClear ∧ ∀ s : State,
    (s.tx.state = .sending → exec .txClear s = .next { s with status := s.status ||| 0x40#8, cmdCause := .state }) ∧
    (s.tx.state ≠ .sending → exec .txClear s = .next { s with tx := { s.tx with state := .building, cause := .none } })

/-- R320, R321: every TICK advances NOW modulo 2^64, and outside SENDING nothing else. In SENDING it advances ELAPSED, saturating;
before the timeout nothing else happens; at the timeout TX gives up when MAX_RETRY is not 0 and used up, else sends the retained
segment again. -/
def Obligations.TickInEveryState : Prop :=
  ∀ s : State, ∃ (n : DWord) (e c r : Word), n.toNat = (s.now.toNat + 1) % 2 ^ 64 ∧
    e.toNat = min (s.tx.elapsed.toNat + 1) 0xFFFFFFFF ∧ c.toNat = min (s.tx.retxCnt.toNat + 1) 0xFFFFFFFF ∧
    r.toNat = min (s.tx.retryCur.toNat + 1) 0xFFFFFFFF ∧
    (s.tx.state ≠ .sending → runEvent .tick s = .next { s with now := n }) ∧
    (s.tx.state = .sending → e.toNat * 256 < s.rtt.timeout.toNat →
      runEvent .tick s = .next { s with now := n, tx := { s.tx with elapsed := e } }) ∧
    (s.tx.state = .sending → s.rtt.timeout.toNat ≤ e.toNat * 256 →
      s.cfg.maxRetry ≠ 0 → s.cfg.maxRetry.toNat ≤ s.tx.retryCur.toNat → runEvent .tick s = .next { s with
        now := n
        status := s.status ||| 0x02#8
        tx := { s.tx with elapsed := e, state := .failed, cause := .giveUp } }) ∧
    (s.tx.state = .sending → s.rtt.timeout.toNat ≤ e.toNat * 256 →
      (s.cfg.maxRetry = 0 ∨ s.tx.retryCur.toNat < s.cfg.maxRetry.toNat) → runEvent .tick s = .next { s with
        now := n
        status := s.status ||| 0x20#8
        dtx := s.dtx ++ [s.readBytes .txSegbuf 0 576]
        tx := { s.tx with elapsed := 0, retxCnt := c, retryCur := r, sendTime := n } })

/-- R323, R324: after a transmission, with nothing but TICKs presented (in inputs, log entry 1), TX waits without output for K - 1
ticks and at the K-th sends exactly one copy of the retained segment, K = max(1, ceil(TIMEOUT / 256)), with RETX_CNT one higher and the same current
segment. -/
def Obligations.TimeoutRetransmitsAtTickK : Prop :=
  ∀ (s : State) (rest : List Event), s.tx.state = .sending → s.tx.elapsed = 0 →
    (s.cfg.maxRetry = 0 ∨ s.tx.retryCur.toNat < s.cfg.maxRetry.toNat) →
    s.inputs = List.replicate (timeoutTick s.rtt.timeout) Event.tick ++ rest →
    (∀ j, j < timeoutTick s.rtt.timeout → ∃ t, Host.Core.run Sys2Proof.core j s = .next t ∧ t.dtx = s.dtx ∧
      t.tx = { s.tx with elapsed := BitVec.ofNat 32 j }) ∧
    ∃ (t : State) (c r : Word), Host.Core.run Sys2Proof.core (timeoutTick s.rtt.timeout) s = .next t ∧
      c.toNat = min (s.tx.retxCnt.toNat + 1) 0xFFFFFFFF ∧ r.toNat = min (s.tx.retryCur.toNat + 1) 0xFFFFFFFF ∧
      t = { s with
        inputs := rest
        now := s.now + BitVec.ofNat 64 (timeoutTick s.rtt.timeout)
        status := s.status ||| 0x20#8
        dtx := s.dtx ++ [s.readBytes .txSegbuf 0 576]
        tx := { s.tx with retxCnt := c, retryCur := r, elapsed := 0, sendTime := t.now } }

/-- R311, R466: a token outside SENDING, or one that ACK_CHECK rejects, changes nothing. -/
def Obligations.UnacceptedTokenChangesNothing : Prop :=
  ∀ (s : State) (tok : Word), (s.tx.state ≠ .sending ∨ (s.cfg.ackCheck = true ∧ tok ≠ s.tx.ack)) →
    runEvent (.arx tok) s = .next s

/-- R310, R311, R312: an accepted token for a segment that is not the last is fed to the estimator, logged, and makes TX send the
next segment of the stream and keep it; no other state changes. -/
def Obligations.AcceptedTokenSendsTheNextSegment : Prop :=
  ∀ (s : State) (tok : Word), Inv s → s.tx.state = .sending → (s.cfg.ackCheck = false ∨ tok = s.tx.ack) →
    s.tx.cur.toNat + 1 < s.tx.nseg.toNat → ∃ (t : State) (d : Datagram) (k q a : Word),
    runEvent (.arx tok) s = .next t ∧ k.toNat = s.tx.cur.toNat + 1 ∧ q.toNat = 556 * k.toNat ∧
    a.toNat = min (q.toNat + 556) s.cfg.txLen.toNat ∧
    t = { s with
      mem := t.mem
      dtx := s.dtx ++ [d]
      rtt := s.rtt.onSample s.cfg.firstOvr s.tx.elapsed
      log := s.log ++ [{ kind := 1, timestamp := s.tx.sendTime, seq := s.tx.seq, ack := s.tx.ack, fin := 0, aux := t.rtt.est }]
      tx := { s.tx with
        cur := k, seq := q, ack := a, segSent := s.tx.segSent + 1, bytesSent := a, sendTime := s.now, elapsed := 0,
        retryCur := 0 } } ∧
    t.readBytes .txSegbuf 0 576 = d ∧
    WireSegment d (s.cfg.ports.toNat % 65536) (s.cfg.ports.toNat / 65536) q.toNat a.toNat
      (decide (k.toNat + 1 = s.tx.nseg.toNat)) (a.toNat - q.toNat) (fun j => s.readByte .txMem (q.toNat + j)) s.cfg.padByte ∧
    ∀ sp x, sp ≠ .txSegbuf ∨ 576 ≤ x → t.readByte sp x = s.readByte sp x

/-- R311, R312, R313, R331: an accepted token for the last segment is fed to the estimator and logged, and completes the transfer:
XFER_TIME, DONE and STATUS.TX_DONE; no datagram is sent and nothing else changes. In a state of the invariant no other step completes
a transfer, and then BYTES_SENT is TX_LEN and SEG_SENT is TX_NSEG, the number of segments of the input. -/
def Obligations.AcceptedFinalTokenCompletes : Prop :=
  (∀ (s : State) (tok : Word), s.tx.state = .sending → (s.cfg.ackCheck = false ∨ tok = s.tx.ack) →
    s.tx.cur.toNat + 1 = s.tx.nseg.toNat → ∃ t, runEvent (.arx tok) s = .next t ∧
    t = { s with
      status := s.status ||| 0x01#8
      rtt := s.rtt.onSample s.cfg.firstOvr s.tx.elapsed
      log := s.log ++ [{ kind := 1, timestamp := s.tx.sendTime, seq := s.tx.seq, ack := s.tx.ack, fin := 1, aux := t.rtt.est }]
      tx := { s.tx with state := .done, xferTime := s.now - s.tx.startTime } }) ∧
  ∀ s t : State, Inv s → step s = .next t → s.tx.state ≠ .done → t.tx.state = .done →
    s.tx.state = .sending ∧ (∃ tok, s.nextEvent = some (.arx tok) ∧ (s.cfg.ackCheck = false ∨ tok = s.tx.ack)) ∧
    t.cfg = s.cfg ∧ t.tx.bytesSent = s.cfg.txLen ∧ t.tx.segSent = t.tx.nseg ∧
    t.tx.nseg.toNat = max 1 ((s.cfg.txLen.toNat + 555) / 556) ∧ t.tx.retxCnt = s.tx.retxCnt ∧
    t.tx.xferTime = s.now - s.tx.startTime

/-! ## Receiver -/

/-- R370: the word 3 is RX_START; outside IDLE it raises CmdError(STATE); in IDLE it clears the counters and the cause and enters
RECEIVING; nothing else changes, RX_MEM included. -/
def Obligations.RxStartBeginsReception : Prop :=
  decode 0x00000003#32 = .ok .rxStart ∧ ∀ s : State,
    (s.rx.state ≠ .idle → exec .rxStart s = .next { s with status := s.status ||| 0x40#8, cmdCause := .state }) ∧
    (s.rx.state = .idle → exec .rxStart s = .next { s with
      rx := { state := .receiving, cause := .none, bytes := 0, segs := 0, dropCksum := 0, dropMalf := 0, lastAck := 0 } })

/-- R371: the word 4 is RX_CLEAR; while RECEIVING it raises CmdError(STATE); else it returns RX to IDLE with no cause; nothing else
changes. -/
def Obligations.RxClearReturnsToIdle : Prop :=
  decode 0x00000004#32 = .ok .rxClear ∧ ∀ s : State,
    (s.rx.state = .receiving → exec .rxClear s = .next { s with status := s.status ||| 0x40#8, cmdCause := .state }) ∧
    (s.rx.state ≠ .receiving → exec .rxClear s = .next { s with rx := { s.rx with state := .idle, cause := .none } })

/-- R375: outside RECEIVING a datagram is not consumed and changes nothing. -/
def Obligations.DatagramOutsideReceivingIsIgnored : Prop :=
  ∀ (s : State) (d : Datagram), s.rx.state ≠ .receiving → runEvent (.drx d) s = .next s

/-- R380 to R383, R464, R475: RX drops a datagram of the wrong length, then one whose checksum is wrong, then one whose payload
length is above 556: it counts it, sets STATUS.RX_DROP, sends nothing, and only a 576-byte one is copied to RX_SEGBUF. -/
def Obligations.BadDatagramsAreDropped : Prop :=
  ∀ (s : State) (d : Datagram), s.rx.state = .receiving → ∃ m c : Word,
    m.toNat = min (s.rx.dropMalf.toNat + 1) 0xFFFFFFFF ∧ c.toNat = min (s.rx.dropCksum.toNat + 1) 0xFFFFFFFF ∧
    (d.length ≠ 576 →
      runEvent (.drx d) s = .next { s with status := s.status ||| 0x10#8, rx := { s.rx with dropMalf := m } }) ∧
    (d.length = 576 → num16 d 16 ≠ closedForm (wordTotal d) → ∃ t, runEvent (.drx d) s = .next t ∧
      t = { s with mem := t.mem, status := s.status ||| 0x10#8, rx := { s.rx with dropCksum := c } } ∧
      t.readBytes .rxSegbuf 0 576 = d ∧ ∀ sp a, sp ≠ .rxSegbuf ∨ 576 ≤ a → t.readByte sp a = s.readByte sp a) ∧
    (d.length = 576 → num16 d 16 = closedForm (wordTotal d) → 556 < trueLength d → ∃ t, runEvent (.drx d) s = .next t ∧
      t = { s with mem := t.mem, status := s.status ||| 0x10#8, rx := { s.rx with dropMalf := m } } ∧
      t.readBytes .rxSegbuf 0 576 = d ∧ ∀ sp a, sp ≠ .rxSegbuf ∨ 576 ≤ a → t.readByte sp a = s.readByte sp a)

/-- R384, R462, R466: a valid segment whose payload would pass RX_MEM_SIZE makes RX FAILED with cause OVERFLOW and sets
STATUS.RX_FAIL; it is copied to RX_SEGBUF but neither delivered nor acknowledged. -/
def Obligations.OverflowFaultsTheReceiver : Prop :=
  ∀ (s : State) (d : Datagram), s.rx.state = .receiving → Valid d → s.build.rxMemSize < s.rx.bytes.toNat + trueLength d →
    ∃ t, runEvent (.drx d) s = .next t ∧
    t = { s with
      mem := t.mem, status := s.status ||| 0x08#8, rx := { s.rx with state := .failed, cause := .overflow } } ∧
    t.readBytes .rxSegbuf 0 576 = d ∧ ∀ sp a, sp ≠ .rxSegbuf ∨ 576 ≤ a → t.readByte sp a = s.readByte sp a

/-- R381, R385 to R388: a valid segment that fits is delivered: its true payload at RX_MEM[RX_BYTES ..], the counters, one token,
one record; on a finFlag byte other than 0 RX is DONE and STATUS.RX_DONE is set; every other byte and register stands. -/
def Obligations.ValidSegmentIsDelivered : Prop :=
  ∀ (s : State) (d : Datagram), s.build.wf = true → s.rx.state = .receiving → Valid d →
    s.rx.bytes.toNat + trueLength d ≤ s.build.rxMemSize → ∃ (t : State) (n g a q p : Word),
    runEvent (.drx d) s = .next t ∧ n.toNat = s.rx.bytes.toNat + trueLength d ∧
    g.toNat = min (s.rx.segs.toNat + 1) 0xFFFFFFFF ∧ a.toNat = num32 d 8 ∧ q.toNat = num32 d 4 ∧
    p.toNat = 65536 * num16 d 2 + num16 d 0 ∧
    t = { s with
      mem := t.mem
      status := if num d 14 = 0 then s.status else s.status ||| 0x04#8
      rx := { s.rx with
        state := if num d 14 = 0 then .receiving else .done, bytes := n, segs := g, lastAck := a }
      atx := s.atx ++ [a]
      log := s.log ++ [{ kind := 2, timestamp := s.now, seq := q, ack := a, fin := if num d 14 = 0 then 0 else 1, aux := p }] } ∧
    t.readBytes .rxSegbuf 0 576 = d ∧
    (∀ k, k < trueLength d → t.readByte .rxMem (s.rx.bytes.toNat + k) = d.getD (20 + k) 0) ∧
    ∀ sp x, ¬ (sp = .rxSegbuf ∧ x < 576) → ¬ (sp = .rxMem ∧ s.rx.bytes.toNat ≤ x ∧ x < s.rx.bytes.toNat + trueLength d) →
      t.readByte sp x = s.readByte sp x

/-- R390, R391: of valid datagrams that arrive one after another, none but the last a FIN, with room for all, RX delivers every
one in arrival order, duplicates included: RX_MEM gets the concatenation of their true payloads, ATX their ackNumbers. -/
def Obligations.ReceptionConcatenatesPayloads : Prop :=
  ∀ (s : State) (ds : List Datagram), s.build.wf = true → s.rx.state = .receiving → (∀ d ∈ ds, Valid d) →
    (∀ d ∈ ds.dropLast, num d 14 = 0) → s.rx.bytes.toNat + (ds.map trueLength).sum ≤ s.build.rxMemSize → ∃ t,
    afterEvents (ds.map Event.drx) s = t ∧ t.rx.bytes.toNat = s.rx.bytes.toNat + (ds.map trueLength).sum ∧
    t.readBytes .rxMem s.rx.bytes.toNat (ds.map trueLength).sum = ds.flatMap payload ∧
    (∀ a, a < s.rx.bytes.toNat → t.readByte .rxMem a = s.readByte .rxMem a) ∧
    t.atx.map BitVec.toNat = s.atx.map BitVec.toNat ++ ds.map (fun d => num32 d 8) ∧
    t.rx.segs.toNat = min (s.rx.segs.toNat + ds.length) 0xFFFFFFFF ∧ t.rx.dropCksum = s.rx.dropCksum ∧
    t.rx.dropMalf = s.rx.dropMalf

/-! ## The whole machine -/

/-- R60, R66: the invariant holds after reset. -/
def Obligations.ResetMeetsTheInvariant : Prop := Inv State.reset

/-- R45, R59, R60, R119, R301 to R304, R310, R322 to R325, R331, R461, R462: every step keeps the invariant: memories canonical
and in bounds, causes exactly in FAILED, the retained datagram the current segment, the registers and statistics those of the
segmentation, the timer within the timeout, every emitted datagram 576 bytes. -/
def Obligations.EveryStepKeepsTheInvariant : Prop := ∀ s t : State, Inv s → step s = .next t → Inv t

/-- R60, R105, R384: every step keeps the memories canonical and within their sizes, with no other premise. -/
def Obligations.EveryStepKeepsMemoryCanonical : Prop :=
  ∀ s t : State, MemoryCanonical s → step s = .next t → MemoryCanonical t

/-- R40, R41, R466, R468: every step keeps each unit's cause nonzero exactly in FAILED. -/
def Obligations.EveryStepKeepsCauseIffFailed : Prop := ∀ s t : State, CauseIffFailed s → step s = .next t → CauseIffFailed t

/-- R63, R119: the output traces only grow, by whole entries at the end, except that RST empties them. -/
def Obligations.OutputTracesOnlyGrow : Prop :=
  ∀ (s t : State), step s = .next t → s.nextEvent ≠ some .rst →
    s.dtx <+: t.dtx ∧ s.atx <+: t.atx ∧ s.log <+: t.log

/-- R460: no step stops the block: every state has a next state. -/
def Obligations.EveryStepHasANextState : Prop := ∀ s : State, ∃ t, step s = .next t

/-- R484, R537: what the sender does at a TICK or a token neither depends on nor changes the receiver, the codec, their memories
or ATX. -/
def Obligations.SenderIgnoresReceiverAndCodec : Prop :=
  ∀ (s : State) (e : Event) (x : RxUnit) (k : CkUnit) (a : List Word) (m1 m2 m3 : Memory),
    (e = .tick ∨ ∃ tok, e = .arx tok) → ∃ t, runEvent e s = .next t ∧ t.rx = s.rx ∧ t.ck = s.ck ∧ t.atx = s.atx ∧
    t.mem.ckBuf = s.mem.ckBuf ∧ t.mem.rxSegbuf = s.mem.rxSegbuf ∧ t.mem.rxMem = s.mem.rxMem ∧ t.mem.txMem = s.mem.txMem ∧
    runEvent e { s with
      rx := x, ck := k, atx := a, mem := { s.mem with ckBuf := m1, rxSegbuf := m2, rxMem := m3 } } =
      .next { t with rx := x, ck := k, atx := a, mem := { t.mem with ckBuf := m1, rxSegbuf := m2, rxMem := m3 } }

/-- R484, R537: what the receiver does with a datagram neither depends on nor changes the sender, the estimator, the
configuration, the codec, their memories or DTX. -/
def Obligations.ReceiverIgnoresSenderAndCodec : Prop :=
  ∀ (s : State) (d : Datagram) (x : TxUnit) (r : RttUnit) (c : SessionConfig) (k : CkUnit) (o : List Datagram)
    (m1 m2 m3 : Memory), ∃ t, runEvent (.drx d) s = .next t ∧ t.tx = s.tx ∧ t.rtt = s.rtt ∧ t.cfg = s.cfg ∧ t.ck = s.ck ∧
    t.dtx = s.dtx ∧ t.mem.ckBuf = s.mem.ckBuf ∧ t.mem.txSegbuf = s.mem.txSegbuf ∧ t.mem.txMem = s.mem.txMem ∧
    runEvent (.drx d) { s with
      tx := x, rtt := r, cfg := c, ck := k, dtx := o, mem := { s.mem with ckBuf := m1, txSegbuf := m2, txMem := m3 } } =
      .next { t with
        tx := x, rtt := r, cfg := c, ck := k, dtx := o, mem := { t.mem with ckBuf := m1, txSegbuf := m2, txMem := m3 } }

/-- R392, R484: a block looped back to itself over a perfect channel, with any numbers of ticks between the arrivals but no
retransmission: after one round trip per segment TX and RX are DONE, RX has delivered TX_NSEG segments and TX_LEN bytes, and
RX_MEM holds exactly the input stream. -/
def Obligations.PerfectChannelDeliversTheStream : Prop :=
  ∀ (s s1 s2 : State) (gaps : List (Nat × Nat)), s.build.wf = true → s.tx.state = .building → s.rx.state = .idle →
    s.cfg.window = 1 → s.cfg.txLen.toNat ≤ s.build.txMemSize → s.cfg.txLen.toNat ≤ s.build.rxMemSize →
    exec .rxStart s = .next s1 → exec .txStart s1 = .next s2 → gaps.length = s2.tx.nseg.toNat →
    ((gaps.foldl (fun u g => roundTrip g u) s2).tx.retxCnt = 0) → ∃ t, gaps.foldl (fun u g => roundTrip g u) s2 = t ∧
    t.tx.state = .done ∧ t.rx.state = .done ∧ t.rx.bytes = s.cfg.txLen ∧ t.rx.segs = s2.tx.nseg ∧
    ∀ a, a < s.cfg.txLen.toNat → t.readByte .rxMem a = s.readByte .txMem a

/-! ## The environment -/

/-- R322, R375, R487: the executions without an end that a model must keep. Under every schedule without RST and without a token that
ACK_CHECK would let pass: a sender with MAX_RETRY = 0 stays in SENDING and, if TICKs keep coming, sends the retained segment again
and again, for ever; with a retry bound it stays in SENDING or gives up. Under every schedule without RST and without a valid
FIN segment a receiver in RECEIVING stays there, unless it overflows. From reset there is one execution in which the sender
retransmits for ever while the receiver waits for ever. (Schedules are the model's form of the environment, log entry 24.) -/
def Obligations.LivenessGapsAreExecutions : Prop :=
  (∀ (ev : Schedule) (s : State), s.tx.state = .sending → (∀ n, ev n ≠ some .rst) →
    (∀ n tok, ev n = some (.arx tok) → s.cfg.ackCheck = true ∧ tok ≠ s.tx.ack) →
    (s.cfg.maxRetry = 0 → ∀ n, (execution ev s n).tx.state = .sending ∧
      ((∀ k, ∃ m, k ≤ m ∧ ev m = some .tick) → ∃ m, n ≤ m ∧
        (execution ev s (m + 1)).dtx = (execution ev s m).dtx ++ [s.readBytes .txSegbuf 0 576] ∧
        (execution ev s (m + 1)).status.getLsbD 5 = true)) ∧
    ∀ n, (execution ev s n).tx.state = .sending ∨ ∃ m, m < n ∧ (execution ev s m).tx.state = .sending ∧
      (execution ev s (m + 1)).tx.state = .failed ∧ (execution ev s (m + 1)).tx.cause = .giveUp) ∧
  (∀ (ev : Schedule) (s : State), s.rx.state = .receiving → (∀ n, ev n ≠ some .rst) →
    (∀ n d, ev n = some (.drx d) → Valid d → num d 14 = 0) →
    ∀ n, (execution ev s n).rx.state = .receiving ∨ ∃ m, m < n ∧ (execution ev s m).rx.state = .receiving ∧
      (execution ev s (m + 1)).rx.state = .failed ∧ (execution ev s (m + 1)).rx.cause = .overflow) ∧
  ∃ ev : Schedule, ∀ n, (execution ev State.reset (n + 2)).tx.state = .sending ∧
    (execution ev State.reset (n + 2)).rx.state = .receiving ∧ (execution ev State.reset (n + 2)).dtx.length = n + 1

/-- R311, R325, R482, R484: over an ack channel, lossy or not, TX acknowledges no more segments than the peer's RX has sent tokens,
and is DONE only after as many tokens as there are segments. Over the default channel, at every time there is another at which
exactly the tokens sent so far have been received, each once and in order. (Schedules and the channel's form are the model's, log
entries 19 and 24.) -/
def Obligations.NoSegmentPassesWithoutAPeerToken : Prop :=
  ∀ (ev peerEv : Schedule) (s peer : State), AckChannel ev s peerEv peer →
    (s.tx.state ≠ .done → s.tx.cur = 0 → ∀ n,
      (execution ev s n).tx.cur.toNat ≤ (tokensSent peerEv peer n).length ∧
      ((execution ev s n).tx.state = .done → (execution ev s n).tx.nseg.toNat ≤ (tokensSent peerEv peer n).length)) ∧
    (s.build.ackChannelLossy = false → ∀ n, ∃ m, tokensReceived ev m = tokensSent peerEv peer n)
end

