-- ==== Sys2Proof/Laws/State.lean ====
section
/-! SUPPORT. One lemma per field and shared operation: what the operation leaves in that field of State. Proofs cite these
(they are simp lemmas) and never unfold a record update. -/

namespace Sys2Proof.Machine.State

variable (s : State)

/-! ### setStatus -/

@[simp] theorem setStatus_cfg (b : StatusBit) : (s.setStatus b).cfg = s.cfg := rfl
@[simp] theorem setStatus_tx (b : StatusBit) : (s.setStatus b).tx = s.tx := rfl
@[simp] theorem setStatus_rtt (b : StatusBit) : (s.setStatus b).rtt = s.rtt := rfl
@[simp] theorem setStatus_rx (b : StatusBit) : (s.setStatus b).rx = s.rx := rfl
@[simp] theorem setStatus_ck (b : StatusBit) : (s.setStatus b).ck = s.ck := rfl
@[simp] theorem setStatus_status (b : StatusBit) : (s.setStatus b).status = s.status ||| b.mask := rfl
@[simp] theorem setStatus_irqEn (b : StatusBit) : (s.setStatus b).irqEn = s.irqEn := rfl
@[simp] theorem setStatus_cmdCause (b : StatusBit) : (s.setStatus b).cmdCause = s.cmdCause := rfl
@[simp] theorem setStatus_now (b : StatusBit) : (s.setStatus b).now = s.now := rfl
@[simp] theorem setStatus_nowHiL (b : StatusBit) : (s.setStatus b).nowHiL = s.nowHiL := rfl
@[simp] theorem setStatus_sendTimeHiL (b : StatusBit) : (s.setStatus b).sendTimeHiL = s.sendTimeHiL := rfl
@[simp] theorem setStatus_xferTimeHiL (b : StatusBit) : (s.setStatus b).xferTimeHiL = s.xferTimeHiL := rfl
@[simp] theorem setStatus_mem (b : StatusBit) : (s.setStatus b).mem = s.mem := rfl
@[simp] theorem setStatus_dtx (b : StatusBit) : (s.setStatus b).dtx = s.dtx := rfl
@[simp] theorem setStatus_atx (b : StatusBit) : (s.setStatus b).atx = s.atx := rfl
@[simp] theorem setStatus_log (b : StatusBit) : (s.setStatus b).log = s.log := rfl
@[simp] theorem setStatus_hostResp (b : StatusBit) : (s.setStatus b).hostResp = s.hostResp := rfl
@[simp] theorem setStatus_inputs (b : StatusBit) : (s.setStatus b).inputs = s.inputs := rfl
@[simp] theorem setStatus_turn (b : StatusBit) : (s.setStatus b).turn = s.turn := rfl
@[simp] theorem setStatus_resets (b : StatusBit) : (s.setStatus b).resets = s.resets := rfl
@[simp] theorem setStatus_build (b : StatusBit) : (s.setStatus b).build = s.build := rfl

/-! ### clearStatus -/

@[simp] theorem clearStatus_cfg (v : Word) : (s.clearStatus v).cfg = s.cfg := rfl
@[simp] theorem clearStatus_tx (v : Word) : (s.clearStatus v).tx = s.tx := rfl
@[simp] theorem clearStatus_rtt (v : Word) : (s.clearStatus v).rtt = s.rtt := rfl
@[simp] theorem clearStatus_rx (v : Word) : (s.clearStatus v).rx = s.rx := rfl
@[simp] theorem clearStatus_ck (v : Word) : (s.clearStatus v).ck = s.ck := rfl
@[simp] theorem clearStatus_status (v : Word) : (s.clearStatus v).status = s.status &&& ~~~(v.extractLsb' 0 8) := rfl
@[simp] theorem clearStatus_irqEn (v : Word) : (s.clearStatus v).irqEn = s.irqEn := rfl
@[simp] theorem clearStatus_cmdCause (v : Word) : (s.clearStatus v).cmdCause = s.cmdCause := rfl
@[simp] theorem clearStatus_now (v : Word) : (s.clearStatus v).now = s.now := rfl
@[simp] theorem clearStatus_nowHiL (v : Word) : (s.clearStatus v).nowHiL = s.nowHiL := rfl
@[simp] theorem clearStatus_sendTimeHiL (v : Word) : (s.clearStatus v).sendTimeHiL = s.sendTimeHiL := rfl
@[simp] theorem clearStatus_xferTimeHiL (v : Word) : (s.clearStatus v).xferTimeHiL = s.xferTimeHiL := rfl
@[simp] theorem clearStatus_mem (v : Word) : (s.clearStatus v).mem = s.mem := rfl
@[simp] theorem clearStatus_dtx (v : Word) : (s.clearStatus v).dtx = s.dtx := rfl
@[simp] theorem clearStatus_atx (v : Word) : (s.clearStatus v).atx = s.atx := rfl
@[simp] theorem clearStatus_log (v : Word) : (s.clearStatus v).log = s.log := rfl
@[simp] theorem clearStatus_hostResp (v : Word) : (s.clearStatus v).hostResp = s.hostResp := rfl
@[simp] theorem clearStatus_inputs (v : Word) : (s.clearStatus v).inputs = s.inputs := rfl
@[simp] theorem clearStatus_turn (v : Word) : (s.clearStatus v).turn = s.turn := rfl
@[simp] theorem clearStatus_resets (v : Word) : (s.clearStatus v).resets = s.resets := rfl
@[simp] theorem clearStatus_build (v : Word) : (s.clearStatus v).build = s.build := rfl

/-! ### cmdError -/

@[simp] theorem cmdError_cfg (c : CmdCause) : (s.cmdError c).cfg = s.cfg := rfl
@[simp] theorem cmdError_tx (c : CmdCause) : (s.cmdError c).tx = s.tx := rfl
@[simp] theorem cmdError_rtt (c : CmdCause) : (s.cmdError c).rtt = s.rtt := rfl
@[simp] theorem cmdError_rx (c : CmdCause) : (s.cmdError c).rx = s.rx := rfl
@[simp] theorem cmdError_ck (c : CmdCause) : (s.cmdError c).ck = s.ck := rfl
@[simp] theorem cmdError_status (c : CmdCause) : (s.cmdError c).status = s.status ||| StatusBit.cmdErr.mask := rfl
@[simp] theorem cmdError_irqEn (c : CmdCause) : (s.cmdError c).irqEn = s.irqEn := rfl
@[simp] theorem cmdError_cmdCause (c : CmdCause) : (s.cmdError c).cmdCause = c := rfl
@[simp] theorem cmdError_now (c : CmdCause) : (s.cmdError c).now = s.now := rfl
@[simp] theorem cmdError_nowHiL (c : CmdCause) : (s.cmdError c).nowHiL = s.nowHiL := rfl
@[simp] theorem cmdError_sendTimeHiL (c : CmdCause) : (s.cmdError c).sendTimeHiL = s.sendTimeHiL := rfl
@[simp] theorem cmdError_xferTimeHiL (c : CmdCause) : (s.cmdError c).xferTimeHiL = s.xferTimeHiL := rfl
@[simp] theorem cmdError_mem (c : CmdCause) : (s.cmdError c).mem = s.mem := rfl
@[simp] theorem cmdError_dtx (c : CmdCause) : (s.cmdError c).dtx = s.dtx := rfl
@[simp] theorem cmdError_atx (c : CmdCause) : (s.cmdError c).atx = s.atx := rfl
@[simp] theorem cmdError_log (c : CmdCause) : (s.cmdError c).log = s.log := rfl
@[simp] theorem cmdError_hostResp (c : CmdCause) : (s.cmdError c).hostResp = s.hostResp := rfl
@[simp] theorem cmdError_inputs (c : CmdCause) : (s.cmdError c).inputs = s.inputs := rfl
@[simp] theorem cmdError_turn (c : CmdCause) : (s.cmdError c).turn = s.turn := rfl
@[simp] theorem cmdError_resets (c : CmdCause) : (s.cmdError c).resets = s.resets := rfl
@[simp] theorem cmdError_build (c : CmdCause) : (s.cmdError c).build = s.build := rfl

/-! ### raiseTx -/

@[simp] theorem raiseTx_cfg (c : TxCause) : (s.raiseTx c).cfg = s.cfg := rfl
@[simp] theorem raiseTx_tx (c : TxCause) : (s.raiseTx c).tx = { s.tx with state := .failed, cause := c } := rfl
@[simp] theorem raiseTx_rtt (c : TxCause) : (s.raiseTx c).rtt = s.rtt := rfl
@[simp] theorem raiseTx_rx (c : TxCause) : (s.raiseTx c).rx = s.rx := rfl
@[simp] theorem raiseTx_ck (c : TxCause) : (s.raiseTx c).ck = s.ck := rfl
@[simp] theorem raiseTx_status (c : TxCause) : (s.raiseTx c).status = s.status ||| StatusBit.txFail.mask := rfl
@[simp] theorem raiseTx_irqEn (c : TxCause) : (s.raiseTx c).irqEn = s.irqEn := rfl
@[simp] theorem raiseTx_cmdCause (c : TxCause) : (s.raiseTx c).cmdCause = s.cmdCause := rfl
@[simp] theorem raiseTx_now (c : TxCause) : (s.raiseTx c).now = s.now := rfl
@[simp] theorem raiseTx_nowHiL (c : TxCause) : (s.raiseTx c).nowHiL = s.nowHiL := rfl
@[simp] theorem raiseTx_sendTimeHiL (c : TxCause) : (s.raiseTx c).sendTimeHiL = s.sendTimeHiL := rfl
@[simp] theorem raiseTx_xferTimeHiL (c : TxCause) : (s.raiseTx c).xferTimeHiL = s.xferTimeHiL := rfl
@[simp] theorem raiseTx_mem (c : TxCause) : (s.raiseTx c).mem = s.mem := rfl
@[simp] theorem raiseTx_dtx (c : TxCause) : (s.raiseTx c).dtx = s.dtx := rfl
@[simp] theorem raiseTx_atx (c : TxCause) : (s.raiseTx c).atx = s.atx := rfl
@[simp] theorem raiseTx_log (c : TxCause) : (s.raiseTx c).log = s.log := rfl
@[simp] theorem raiseTx_hostResp (c : TxCause) : (s.raiseTx c).hostResp = s.hostResp := rfl
@[simp] theorem raiseTx_inputs (c : TxCause) : (s.raiseTx c).inputs = s.inputs := rfl
@[simp] theorem raiseTx_turn (c : TxCause) : (s.raiseTx c).turn = s.turn := rfl
@[simp] theorem raiseTx_resets (c : TxCause) : (s.raiseTx c).resets = s.resets := rfl
@[simp] theorem raiseTx_build (c : TxCause) : (s.raiseTx c).build = s.build := rfl

/-! ### raiseRx -/

@[simp] theorem raiseRx_cfg (c : RxCause) : (s.raiseRx c).cfg = s.cfg := rfl
@[simp] theorem raiseRx_tx (c : RxCause) : (s.raiseRx c).tx = s.tx := rfl
@[simp] theorem raiseRx_rtt (c : RxCause) : (s.raiseRx c).rtt = s.rtt := rfl
@[simp] theorem raiseRx_rx (c : RxCause) : (s.raiseRx c).rx = { s.rx with state := .failed, cause := c } := rfl
@[simp] theorem raiseRx_ck (c : RxCause) : (s.raiseRx c).ck = s.ck := rfl
@[simp] theorem raiseRx_status (c : RxCause) : (s.raiseRx c).status = s.status ||| StatusBit.rxFail.mask := rfl
@[simp] theorem raiseRx_irqEn (c : RxCause) : (s.raiseRx c).irqEn = s.irqEn := rfl
@[simp] theorem raiseRx_cmdCause (c : RxCause) : (s.raiseRx c).cmdCause = s.cmdCause := rfl
@[simp] theorem raiseRx_now (c : RxCause) : (s.raiseRx c).now = s.now := rfl
@[simp] theorem raiseRx_nowHiL (c : RxCause) : (s.raiseRx c).nowHiL = s.nowHiL := rfl
@[simp] theorem raiseRx_sendTimeHiL (c : RxCause) : (s.raiseRx c).sendTimeHiL = s.sendTimeHiL := rfl
@[simp] theorem raiseRx_xferTimeHiL (c : RxCause) : (s.raiseRx c).xferTimeHiL = s.xferTimeHiL := rfl
@[simp] theorem raiseRx_mem (c : RxCause) : (s.raiseRx c).mem = s.mem := rfl
@[simp] theorem raiseRx_dtx (c : RxCause) : (s.raiseRx c).dtx = s.dtx := rfl
@[simp] theorem raiseRx_atx (c : RxCause) : (s.raiseRx c).atx = s.atx := rfl
@[simp] theorem raiseRx_log (c : RxCause) : (s.raiseRx c).log = s.log := rfl
@[simp] theorem raiseRx_hostResp (c : RxCause) : (s.raiseRx c).hostResp = s.hostResp := rfl
@[simp] theorem raiseRx_inputs (c : RxCause) : (s.raiseRx c).inputs = s.inputs := rfl
@[simp] theorem raiseRx_turn (c : RxCause) : (s.raiseRx c).turn = s.turn := rfl
@[simp] theorem raiseRx_resets (c : RxCause) : (s.raiseRx c).resets = s.resets := rfl
@[simp] theorem raiseRx_build (c : RxCause) : (s.raiseRx c).build = s.build := rfl

/-! ### leaveTx -/

@[simp] theorem leaveTx_cfg : s.leaveTx.cfg = s.cfg := rfl
@[simp] theorem leaveTx_tx : s.leaveTx.tx = { s.tx with state := .building, cause := .none } := rfl
@[simp] theorem leaveTx_rtt : s.leaveTx.rtt = s.rtt := rfl
@[simp] theorem leaveTx_rx : s.leaveTx.rx = s.rx := rfl
@[simp] theorem leaveTx_ck : s.leaveTx.ck = s.ck := rfl
@[simp] theorem leaveTx_status : s.leaveTx.status = s.status := rfl
@[simp] theorem leaveTx_irqEn : s.leaveTx.irqEn = s.irqEn := rfl
@[simp] theorem leaveTx_cmdCause : s.leaveTx.cmdCause = s.cmdCause := rfl
@[simp] theorem leaveTx_now : s.leaveTx.now = s.now := rfl
@[simp] theorem leaveTx_nowHiL : s.leaveTx.nowHiL = s.nowHiL := rfl
@[simp] theorem leaveTx_sendTimeHiL : s.leaveTx.sendTimeHiL = s.sendTimeHiL := rfl
@[simp] theorem leaveTx_xferTimeHiL : s.leaveTx.xferTimeHiL = s.xferTimeHiL := rfl
@[simp] theorem leaveTx_mem : s.leaveTx.mem = s.mem := rfl
@[simp] theorem leaveTx_dtx : s.leaveTx.dtx = s.dtx := rfl
@[simp] theorem leaveTx_atx : s.leaveTx.atx = s.atx := rfl
@[simp] theorem leaveTx_log : s.leaveTx.log = s.log := rfl
@[simp] theorem leaveTx_hostResp : s.leaveTx.hostResp = s.hostResp := rfl
@[simp] theorem leaveTx_inputs : s.leaveTx.inputs = s.inputs := rfl
@[simp] theorem leaveTx_turn : s.leaveTx.turn = s.turn := rfl
@[simp] theorem leaveTx_resets : s.leaveTx.resets = s.resets := rfl
@[simp] theorem leaveTx_build : s.leaveTx.build = s.build := rfl

/-! ### leaveRx -/

@[simp] theorem leaveRx_cfg : s.leaveRx.cfg = s.cfg := rfl
@[simp] theorem leaveRx_tx : s.leaveRx.tx = s.tx := rfl
@[simp] theorem leaveRx_rtt : s.leaveRx.rtt = s.rtt := rfl
@[simp] theorem leaveRx_rx : s.leaveRx.rx = { s.rx with state := .idle, cause := .none } := rfl
@[simp] theorem leaveRx_ck : s.leaveRx.ck = s.ck := rfl
@[simp] theorem leaveRx_status : s.leaveRx.status = s.status := rfl
@[simp] theorem leaveRx_irqEn : s.leaveRx.irqEn = s.irqEn := rfl
@[simp] theorem leaveRx_cmdCause : s.leaveRx.cmdCause = s.cmdCause := rfl
@[simp] theorem leaveRx_now : s.leaveRx.now = s.now := rfl
@[simp] theorem leaveRx_nowHiL : s.leaveRx.nowHiL = s.nowHiL := rfl
@[simp] theorem leaveRx_sendTimeHiL : s.leaveRx.sendTimeHiL = s.sendTimeHiL := rfl
@[simp] theorem leaveRx_xferTimeHiL : s.leaveRx.xferTimeHiL = s.xferTimeHiL := rfl
@[simp] theorem leaveRx_mem : s.leaveRx.mem = s.mem := rfl
@[simp] theorem leaveRx_dtx : s.leaveRx.dtx = s.dtx := rfl
@[simp] theorem leaveRx_atx : s.leaveRx.atx = s.atx := rfl
@[simp] theorem leaveRx_log : s.leaveRx.log = s.log := rfl
@[simp] theorem leaveRx_hostResp : s.leaveRx.hostResp = s.hostResp := rfl
@[simp] theorem leaveRx_inputs : s.leaveRx.inputs = s.inputs := rfl
@[simp] theorem leaveRx_turn : s.leaveRx.turn = s.turn := rfl
@[simp] theorem leaveRx_resets : s.leaveRx.resets = s.resets := rfl
@[simp] theorem leaveRx_build : s.leaveRx.build = s.build := rfl

/-! ### writeBytes -/

@[simp] theorem writeBytes_cfg (sp : Space) (a : Nat) (bs : List Byte) : (s.writeBytes sp a bs).cfg = s.cfg := rfl
@[simp] theorem writeBytes_tx (sp : Space) (a : Nat) (bs : List Byte) : (s.writeBytes sp a bs).tx = s.tx := rfl
@[simp] theorem writeBytes_rtt (sp : Space) (a : Nat) (bs : List Byte) : (s.writeBytes sp a bs).rtt = s.rtt := rfl
@[simp] theorem writeBytes_rx (sp : Space) (a : Nat) (bs : List Byte) : (s.writeBytes sp a bs).rx = s.rx := rfl
@[simp] theorem writeBytes_ck (sp : Space) (a : Nat) (bs : List Byte) : (s.writeBytes sp a bs).ck = s.ck := rfl
@[simp] theorem writeBytes_status (sp : Space) (a : Nat) (bs : List Byte) : (s.writeBytes sp a bs).status = s.status := rfl
@[simp] theorem writeBytes_irqEn (sp : Space) (a : Nat) (bs : List Byte) : (s.writeBytes sp a bs).irqEn = s.irqEn := rfl
@[simp] theorem writeBytes_cmdCause (sp : Space) (a : Nat) (bs : List Byte) : (s.writeBytes sp a bs).cmdCause = s.cmdCause := rfl
@[simp] theorem writeBytes_now (sp : Space) (a : Nat) (bs : List Byte) : (s.writeBytes sp a bs).now = s.now := rfl
@[simp] theorem writeBytes_nowHiL (sp : Space) (a : Nat) (bs : List Byte) : (s.writeBytes sp a bs).nowHiL = s.nowHiL := rfl
@[simp] theorem writeBytes_sendTimeHiL (sp : Space) (a : Nat) (bs : List Byte) : (s.writeBytes sp a bs).sendTimeHiL = s.sendTimeHiL := rfl
@[simp] theorem writeBytes_xferTimeHiL (sp : Space) (a : Nat) (bs : List Byte) : (s.writeBytes sp a bs).xferTimeHiL = s.xferTimeHiL := rfl
@[simp] theorem writeBytes_mem (sp : Space) (a : Nat) (bs : List Byte) : (s.writeBytes sp a bs).mem = s.mem.put sp ((s.mem.get sp).write a bs) := rfl
@[simp] theorem writeBytes_dtx (sp : Space) (a : Nat) (bs : List Byte) : (s.writeBytes sp a bs).dtx = s.dtx := rfl
@[simp] theorem writeBytes_atx (sp : Space) (a : Nat) (bs : List Byte) : (s.writeBytes sp a bs).atx = s.atx := rfl
@[simp] theorem writeBytes_log (sp : Space) (a : Nat) (bs : List Byte) : (s.writeBytes sp a bs).log = s.log := rfl
@[simp] theorem writeBytes_hostResp (sp : Space) (a : Nat) (bs : List Byte) : (s.writeBytes sp a bs).hostResp = s.hostResp := rfl
@[simp] theorem writeBytes_inputs (sp : Space) (a : Nat) (bs : List Byte) : (s.writeBytes sp a bs).inputs = s.inputs := rfl
@[simp] theorem writeBytes_turn (sp : Space) (a : Nat) (bs : List Byte) : (s.writeBytes sp a bs).turn = s.turn := rfl
@[simp] theorem writeBytes_resets (sp : Space) (a : Nat) (bs : List Byte) : (s.writeBytes sp a bs).resets = s.resets := rfl
@[simp] theorem writeBytes_build (sp : Space) (a : Nat) (bs : List Byte) : (s.writeBytes sp a bs).build = s.build := rfl

/-! ### emitDtx -/

@[simp] theorem emitDtx_cfg (d : Datagram) : (s.emitDtx d).cfg = s.cfg := rfl
@[simp] theorem emitDtx_tx (d : Datagram) : (s.emitDtx d).tx = s.tx := rfl
@[simp] theorem emitDtx_rtt (d : Datagram) : (s.emitDtx d).rtt = s.rtt := rfl
@[simp] theorem emitDtx_rx (d : Datagram) : (s.emitDtx d).rx = s.rx := rfl
@[simp] theorem emitDtx_ck (d : Datagram) : (s.emitDtx d).ck = s.ck := rfl
@[simp] theorem emitDtx_status (d : Datagram) : (s.emitDtx d).status = s.status := rfl
@[simp] theorem emitDtx_irqEn (d : Datagram) : (s.emitDtx d).irqEn = s.irqEn := rfl
@[simp] theorem emitDtx_cmdCause (d : Datagram) : (s.emitDtx d).cmdCause = s.cmdCause := rfl
@[simp] theorem emitDtx_now (d : Datagram) : (s.emitDtx d).now = s.now := rfl
@[simp] theorem emitDtx_nowHiL (d : Datagram) : (s.emitDtx d).nowHiL = s.nowHiL := rfl
@[simp] theorem emitDtx_sendTimeHiL (d : Datagram) : (s.emitDtx d).sendTimeHiL = s.sendTimeHiL := rfl
@[simp] theorem emitDtx_xferTimeHiL (d : Datagram) : (s.emitDtx d).xferTimeHiL = s.xferTimeHiL := rfl
@[simp] theorem emitDtx_mem (d : Datagram) : (s.emitDtx d).mem = s.mem := rfl
@[simp] theorem emitDtx_dtx (d : Datagram) : (s.emitDtx d).dtx = s.dtx ++ [d] := rfl
@[simp] theorem emitDtx_atx (d : Datagram) : (s.emitDtx d).atx = s.atx := rfl
@[simp] theorem emitDtx_log (d : Datagram) : (s.emitDtx d).log = s.log := rfl
@[simp] theorem emitDtx_hostResp (d : Datagram) : (s.emitDtx d).hostResp = s.hostResp := rfl
@[simp] theorem emitDtx_inputs (d : Datagram) : (s.emitDtx d).inputs = s.inputs := rfl
@[simp] theorem emitDtx_turn (d : Datagram) : (s.emitDtx d).turn = s.turn := rfl
@[simp] theorem emitDtx_resets (d : Datagram) : (s.emitDtx d).resets = s.resets := rfl
@[simp] theorem emitDtx_build (d : Datagram) : (s.emitDtx d).build = s.build := rfl

/-! ### emitAtx -/

@[simp] theorem emitAtx_cfg (t : Word) : (s.emitAtx t).cfg = s.cfg := rfl
@[simp] theorem emitAtx_tx (t : Word) : (s.emitAtx t).tx = s.tx := rfl
@[simp] theorem emitAtx_rtt (t : Word) : (s.emitAtx t).rtt = s.rtt := rfl
@[simp] theorem emitAtx_rx (t : Word) : (s.emitAtx t).rx = s.rx := rfl
@[simp] theorem emitAtx_ck (t : Word) : (s.emitAtx t).ck = s.ck := rfl
@[simp] theorem emitAtx_status (t : Word) : (s.emitAtx t).status = s.status := rfl
@[simp] theorem emitAtx_irqEn (t : Word) : (s.emitAtx t).irqEn = s.irqEn := rfl
@[simp] theorem emitAtx_cmdCause (t : Word) : (s.emitAtx t).cmdCause = s.cmdCause := rfl
@[simp] theorem emitAtx_now (t : Word) : (s.emitAtx t).now = s.now := rfl
@[simp] theorem emitAtx_nowHiL (t : Word) : (s.emitAtx t).nowHiL = s.nowHiL := rfl
@[simp] theorem emitAtx_sendTimeHiL (t : Word) : (s.emitAtx t).sendTimeHiL = s.sendTimeHiL := rfl
@[simp] theorem emitAtx_xferTimeHiL (t : Word) : (s.emitAtx t).xferTimeHiL = s.xferTimeHiL := rfl
@[simp] theorem emitAtx_mem (t : Word) : (s.emitAtx t).mem = s.mem := rfl
@[simp] theorem emitAtx_dtx (t : Word) : (s.emitAtx t).dtx = s.dtx := rfl
@[simp] theorem emitAtx_atx (t : Word) : (s.emitAtx t).atx = s.atx ++ [t] := rfl
@[simp] theorem emitAtx_log (t : Word) : (s.emitAtx t).log = s.log := rfl
@[simp] theorem emitAtx_hostResp (t : Word) : (s.emitAtx t).hostResp = s.hostResp := rfl
@[simp] theorem emitAtx_inputs (t : Word) : (s.emitAtx t).inputs = s.inputs := rfl
@[simp] theorem emitAtx_turn (t : Word) : (s.emitAtx t).turn = s.turn := rfl
@[simp] theorem emitAtx_resets (t : Word) : (s.emitAtx t).resets = s.resets := rfl
@[simp] theorem emitAtx_build (t : Word) : (s.emitAtx t).build = s.build := rfl

/-! ### emitLog -/

@[simp] theorem emitLog_cfg (r : LogRecord) : (s.emitLog r).cfg = s.cfg := rfl
@[simp] theorem emitLog_tx (r : LogRecord) : (s.emitLog r).tx = s.tx := rfl
@[simp] theorem emitLog_rtt (r : LogRecord) : (s.emitLog r).rtt = s.rtt := rfl
@[simp] theorem emitLog_rx (r : LogRecord) : (s.emitLog r).rx = s.rx := rfl
@[simp] theorem emitLog_ck (r : LogRecord) : (s.emitLog r).ck = s.ck := rfl
@[simp] theorem emitLog_status (r : LogRecord) : (s.emitLog r).status = s.status := rfl
@[simp] theorem emitLog_irqEn (r : LogRecord) : (s.emitLog r).irqEn = s.irqEn := rfl
@[simp] theorem emitLog_cmdCause (r : LogRecord) : (s.emitLog r).cmdCause = s.cmdCause := rfl
@[simp] theorem emitLog_now (r : LogRecord) : (s.emitLog r).now = s.now := rfl
@[simp] theorem emitLog_nowHiL (r : LogRecord) : (s.emitLog r).nowHiL = s.nowHiL := rfl
@[simp] theorem emitLog_sendTimeHiL (r : LogRecord) : (s.emitLog r).sendTimeHiL = s.sendTimeHiL := rfl
@[simp] theorem emitLog_xferTimeHiL (r : LogRecord) : (s.emitLog r).xferTimeHiL = s.xferTimeHiL := rfl
@[simp] theorem emitLog_mem (r : LogRecord) : (s.emitLog r).mem = s.mem := rfl
@[simp] theorem emitLog_dtx (r : LogRecord) : (s.emitLog r).dtx = s.dtx := rfl
@[simp] theorem emitLog_atx (r : LogRecord) : (s.emitLog r).atx = s.atx := rfl
@[simp] theorem emitLog_log (r : LogRecord) : (s.emitLog r).log = s.log ++ [r] := rfl
@[simp] theorem emitLog_hostResp (r : LogRecord) : (s.emitLog r).hostResp = s.hostResp := rfl
@[simp] theorem emitLog_inputs (r : LogRecord) : (s.emitLog r).inputs = s.inputs := rfl
@[simp] theorem emitLog_turn (r : LogRecord) : (s.emitLog r).turn = s.turn := rfl
@[simp] theorem emitLog_resets (r : LogRecord) : (s.emitLog r).resets = s.resets := rfl
@[simp] theorem emitLog_build (r : LogRecord) : (s.emitLog r).build = s.build := rfl

/-! ### respond -/

@[simp] theorem respond_cfg (r : HostResponse) : (s.respond r).cfg = s.cfg := rfl
@[simp] theorem respond_tx (r : HostResponse) : (s.respond r).tx = s.tx := rfl
@[simp] theorem respond_rtt (r : HostResponse) : (s.respond r).rtt = s.rtt := rfl
@[simp] theorem respond_rx (r : HostResponse) : (s.respond r).rx = s.rx := rfl
@[simp] theorem respond_ck (r : HostResponse) : (s.respond r).ck = s.ck := rfl
@[simp] theorem respond_status (r : HostResponse) : (s.respond r).status = s.status := rfl
@[simp] theorem respond_irqEn (r : HostResponse) : (s.respond r).irqEn = s.irqEn := rfl
@[simp] theorem respond_cmdCause (r : HostResponse) : (s.respond r).cmdCause = s.cmdCause := rfl
@[simp] theorem respond_now (r : HostResponse) : (s.respond r).now = s.now := rfl
@[simp] theorem respond_nowHiL (r : HostResponse) : (s.respond r).nowHiL = s.nowHiL := rfl
@[simp] theorem respond_sendTimeHiL (r : HostResponse) : (s.respond r).sendTimeHiL = s.sendTimeHiL := rfl
@[simp] theorem respond_xferTimeHiL (r : HostResponse) : (s.respond r).xferTimeHiL = s.xferTimeHiL := rfl
@[simp] theorem respond_mem (r : HostResponse) : (s.respond r).mem = s.mem := rfl
@[simp] theorem respond_dtx (r : HostResponse) : (s.respond r).dtx = s.dtx := rfl
@[simp] theorem respond_atx (r : HostResponse) : (s.respond r).atx = s.atx := rfl
@[simp] theorem respond_log (r : HostResponse) : (s.respond r).log = s.log := rfl
@[simp] theorem respond_hostResp (r : HostResponse) : (s.respond r).hostResp = some r := rfl
@[simp] theorem respond_inputs (r : HostResponse) : (s.respond r).inputs = s.inputs := rfl
@[simp] theorem respond_turn (r : HostResponse) : (s.respond r).turn = s.turn := rfl
@[simp] theorem respond_resets (r : HostResponse) : (s.respond r).resets = s.resets := rfl
@[simp] theorem respond_build (r : HostResponse) : (s.respond r).build = s.build := rfl

/-! ### rttInitState -/

@[simp] theorem rttInitState_cfg : s.rttInitState.cfg = s.cfg := rfl
@[simp] theorem rttInitState_tx : s.rttInitState.tx = s.tx := rfl
@[simp] theorem rttInitState_rtt : s.rttInitState.rtt = s.rtt.initState s.cfg := rfl
@[simp] theorem rttInitState_rx : s.rttInitState.rx = s.rx := rfl
@[simp] theorem rttInitState_ck : s.rttInitState.ck = s.ck := rfl
@[simp] theorem rttInitState_status : s.rttInitState.status = s.status := rfl
@[simp] theorem rttInitState_irqEn : s.rttInitState.irqEn = s.irqEn := rfl
@[simp] theorem rttInitState_cmdCause : s.rttInitState.cmdCause = s.cmdCause := rfl
@[simp] theorem rttInitState_now : s.rttInitState.now = s.now := rfl
@[simp] theorem rttInitState_nowHiL : s.rttInitState.nowHiL = s.nowHiL := rfl
@[simp] theorem rttInitState_sendTimeHiL : s.rttInitState.sendTimeHiL = s.sendTimeHiL := rfl
@[simp] theorem rttInitState_xferTimeHiL : s.rttInitState.xferTimeHiL = s.xferTimeHiL := rfl
@[simp] theorem rttInitState_mem : s.rttInitState.mem = s.mem := rfl
@[simp] theorem rttInitState_dtx : s.rttInitState.dtx = s.dtx := rfl
@[simp] theorem rttInitState_atx : s.rttInitState.atx = s.atx := rfl
@[simp] theorem rttInitState_log : s.rttInitState.log = s.log := rfl
@[simp] theorem rttInitState_hostResp : s.rttInitState.hostResp = s.hostResp := rfl
@[simp] theorem rttInitState_inputs : s.rttInitState.inputs = s.inputs := rfl
@[simp] theorem rttInitState_turn : s.rttInitState.turn = s.turn := rfl
@[simp] theorem rttInitState_resets : s.rttInitState.resets = s.resets := rfl
@[simp] theorem rttInitState_build : s.rttInitState.build = s.build := rfl

/-! ### onSample -/

@[simp] theorem onSample_cfg (n : Word) : (s.onSample n).cfg = s.cfg := rfl
@[simp] theorem onSample_tx (n : Word) : (s.onSample n).tx = s.tx := rfl
@[simp] theorem onSample_rtt (n : Word) : (s.onSample n).rtt = s.rtt.onSample s.cfg.firstOvr n := rfl
@[simp] theorem onSample_rx (n : Word) : (s.onSample n).rx = s.rx := rfl
@[simp] theorem onSample_ck (n : Word) : (s.onSample n).ck = s.ck := rfl
@[simp] theorem onSample_status (n : Word) : (s.onSample n).status = s.status := rfl
@[simp] theorem onSample_irqEn (n : Word) : (s.onSample n).irqEn = s.irqEn := rfl
@[simp] theorem onSample_cmdCause (n : Word) : (s.onSample n).cmdCause = s.cmdCause := rfl
@[simp] theorem onSample_now (n : Word) : (s.onSample n).now = s.now := rfl
@[simp] theorem onSample_nowHiL (n : Word) : (s.onSample n).nowHiL = s.nowHiL := rfl
@[simp] theorem onSample_sendTimeHiL (n : Word) : (s.onSample n).sendTimeHiL = s.sendTimeHiL := rfl
@[simp] theorem onSample_xferTimeHiL (n : Word) : (s.onSample n).xferTimeHiL = s.xferTimeHiL := rfl
@[simp] theorem onSample_mem (n : Word) : (s.onSample n).mem = s.mem := rfl
@[simp] theorem onSample_dtx (n : Word) : (s.onSample n).dtx = s.dtx := rfl
@[simp] theorem onSample_atx (n : Word) : (s.onSample n).atx = s.atx := rfl
@[simp] theorem onSample_log (n : Word) : (s.onSample n).log = s.log := rfl
@[simp] theorem onSample_hostResp (n : Word) : (s.onSample n).hostResp = s.hostResp := rfl
@[simp] theorem onSample_inputs (n : Word) : (s.onSample n).inputs = s.inputs := rfl
@[simp] theorem onSample_turn (n : Word) : (s.onSample n).turn = s.turn := rfl
@[simp] theorem onSample_resets (n : Word) : (s.onSample n).resets = s.resets := rfl
@[simp] theorem onSample_build (n : Word) : (s.onSample n).build = s.build := rfl

/-! ### advanceNow -/

@[simp] theorem advanceNow_cfg : s.advanceNow.cfg = s.cfg := rfl
@[simp] theorem advanceNow_tx : s.advanceNow.tx = s.tx := rfl
@[simp] theorem advanceNow_rtt : s.advanceNow.rtt = s.rtt := rfl
@[simp] theorem advanceNow_rx : s.advanceNow.rx = s.rx := rfl
@[simp] theorem advanceNow_ck : s.advanceNow.ck = s.ck := rfl
@[simp] theorem advanceNow_status : s.advanceNow.status = s.status := rfl
@[simp] theorem advanceNow_irqEn : s.advanceNow.irqEn = s.irqEn := rfl
@[simp] theorem advanceNow_cmdCause : s.advanceNow.cmdCause = s.cmdCause := rfl
@[simp] theorem advanceNow_now : s.advanceNow.now = s.now + 1 := rfl
@[simp] theorem advanceNow_nowHiL : s.advanceNow.nowHiL = s.nowHiL := rfl
@[simp] theorem advanceNow_sendTimeHiL : s.advanceNow.sendTimeHiL = s.sendTimeHiL := rfl
@[simp] theorem advanceNow_xferTimeHiL : s.advanceNow.xferTimeHiL = s.xferTimeHiL := rfl
@[simp] theorem advanceNow_mem : s.advanceNow.mem = s.mem := rfl
@[simp] theorem advanceNow_dtx : s.advanceNow.dtx = s.dtx := rfl
@[simp] theorem advanceNow_atx : s.advanceNow.atx = s.atx := rfl
@[simp] theorem advanceNow_log : s.advanceNow.log = s.log := rfl
@[simp] theorem advanceNow_hostResp : s.advanceNow.hostResp = s.hostResp := rfl
@[simp] theorem advanceNow_inputs : s.advanceNow.inputs = s.inputs := rfl
@[simp] theorem advanceNow_turn : s.advanceNow.turn = s.turn := rfl
@[simp] theorem advanceNow_resets : s.advanceNow.resets = s.resets := rfl
@[simp] theorem advanceNow_build : s.advanceNow.build = s.build := rfl

/-! ### advanceElapsed -/

@[simp] theorem advanceElapsed_cfg : s.advanceElapsed.cfg = s.cfg := rfl
@[simp] theorem advanceElapsed_tx : s.advanceElapsed.tx = { s.tx with elapsed := sat32 (s.tx.elapsed.toNat + 1) } := rfl
@[simp] theorem advanceElapsed_rtt : s.advanceElapsed.rtt = s.rtt := rfl
@[simp] theorem advanceElapsed_rx : s.advanceElapsed.rx = s.rx := rfl
@[simp] theorem advanceElapsed_ck : s.advanceElapsed.ck = s.ck := rfl
@[simp] theorem advanceElapsed_status : s.advanceElapsed.status = s.status := rfl
@[simp] theorem advanceElapsed_irqEn : s.advanceElapsed.irqEn = s.irqEn := rfl
@[simp] theorem advanceElapsed_cmdCause : s.advanceElapsed.cmdCause = s.cmdCause := rfl
@[simp] theorem advanceElapsed_now : s.advanceElapsed.now = s.now := rfl
@[simp] theorem advanceElapsed_nowHiL : s.advanceElapsed.nowHiL = s.nowHiL := rfl
@[simp] theorem advanceElapsed_sendTimeHiL : s.advanceElapsed.sendTimeHiL = s.sendTimeHiL := rfl
@[simp] theorem advanceElapsed_xferTimeHiL : s.advanceElapsed.xferTimeHiL = s.xferTimeHiL := rfl
@[simp] theorem advanceElapsed_mem : s.advanceElapsed.mem = s.mem := rfl
@[simp] theorem advanceElapsed_dtx : s.advanceElapsed.dtx = s.dtx := rfl
@[simp] theorem advanceElapsed_atx : s.advanceElapsed.atx = s.atx := rfl
@[simp] theorem advanceElapsed_log : s.advanceElapsed.log = s.log := rfl
@[simp] theorem advanceElapsed_hostResp : s.advanceElapsed.hostResp = s.hostResp := rfl
@[simp] theorem advanceElapsed_inputs : s.advanceElapsed.inputs = s.inputs := rfl
@[simp] theorem advanceElapsed_turn : s.advanceElapsed.turn = s.turn := rfl
@[simp] theorem advanceElapsed_resets : s.advanceElapsed.resets = s.resets := rfl
@[simp] theorem advanceElapsed_build : s.advanceElapsed.build = s.build := rfl

/-! ### clearStats -/

@[simp] theorem clearStats_cfg : s.clearStats.cfg = s.cfg := rfl
@[simp] theorem clearStats_tx : s.clearStats.tx = { s.tx with
      segSent := 0, bytesSent := 0, retxCnt := 0, retryCur := 0, elapsed := 0, xferTime := 0, cur := 0, nseg := 0, seq := 0, ack := 0 } := rfl
@[simp] theorem clearStats_rtt : s.clearStats.rtt = s.rtt := rfl
@[simp] theorem clearStats_rx : s.clearStats.rx = s.rx := rfl
@[simp] theorem clearStats_ck : s.clearStats.ck = s.ck := rfl
@[simp] theorem clearStats_status : s.clearStats.status = s.status := rfl
@[simp] theorem clearStats_irqEn : s.clearStats.irqEn = s.irqEn := rfl
@[simp] theorem clearStats_cmdCause : s.clearStats.cmdCause = s.cmdCause := rfl
@[simp] theorem clearStats_now : s.clearStats.now = s.now := rfl
@[simp] theorem clearStats_nowHiL : s.clearStats.nowHiL = s.nowHiL := rfl
@[simp] theorem clearStats_sendTimeHiL : s.clearStats.sendTimeHiL = s.sendTimeHiL := rfl
@[simp] theorem clearStats_xferTimeHiL : s.clearStats.xferTimeHiL = s.xferTimeHiL := rfl
@[simp] theorem clearStats_mem : s.clearStats.mem = s.mem := rfl
@[simp] theorem clearStats_dtx : s.clearStats.dtx = s.dtx := rfl
@[simp] theorem clearStats_atx : s.clearStats.atx = s.atx := rfl
@[simp] theorem clearStats_log : s.clearStats.log = s.log := rfl
@[simp] theorem clearStats_hostResp : s.clearStats.hostResp = s.hostResp := rfl
@[simp] theorem clearStats_inputs : s.clearStats.inputs = s.inputs := rfl
@[simp] theorem clearStats_turn : s.clearStats.turn = s.turn := rfl
@[simp] theorem clearStats_resets : s.clearStats.resets = s.resets := rfl
@[simp] theorem clearStats_build : s.clearStats.build = s.build := rfl

/-! ### complete -/

@[simp] theorem complete_cfg : s.complete.cfg = s.cfg := rfl
@[simp] theorem complete_tx : s.complete.tx = { s.tx with xferTime := s.now - s.tx.startTime, state := .done } := rfl
@[simp] theorem complete_rtt : s.complete.rtt = s.rtt := rfl
@[simp] theorem complete_rx : s.complete.rx = s.rx := rfl
@[simp] theorem complete_ck : s.complete.ck = s.ck := rfl
@[simp] theorem complete_status : s.complete.status = s.status ||| StatusBit.txDone.mask := rfl
@[simp] theorem complete_irqEn : s.complete.irqEn = s.irqEn := rfl
@[simp] theorem complete_cmdCause : s.complete.cmdCause = s.cmdCause := rfl
@[simp] theorem complete_now : s.complete.now = s.now := rfl
@[simp] theorem complete_nowHiL : s.complete.nowHiL = s.nowHiL := rfl
@[simp] theorem complete_sendTimeHiL : s.complete.sendTimeHiL = s.sendTimeHiL := rfl
@[simp] theorem complete_xferTimeHiL : s.complete.xferTimeHiL = s.xferTimeHiL := rfl
@[simp] theorem complete_mem : s.complete.mem = s.mem := rfl
@[simp] theorem complete_dtx : s.complete.dtx = s.dtx := rfl
@[simp] theorem complete_atx : s.complete.atx = s.atx := rfl
@[simp] theorem complete_log : s.complete.log = s.log := rfl
@[simp] theorem complete_hostResp : s.complete.hostResp = s.hostResp := rfl
@[simp] theorem complete_inputs : s.complete.inputs = s.inputs := rfl
@[simp] theorem complete_turn : s.complete.turn = s.turn := rfl
@[simp] theorem complete_resets : s.complete.resets = s.resets := rfl
@[simp] theorem complete_build : s.complete.build = s.build := rfl

/-! ### finishRx -/

@[simp] theorem finishRx_cfg : s.finishRx.cfg = s.cfg := rfl
@[simp] theorem finishRx_tx : s.finishRx.tx = s.tx := rfl
@[simp] theorem finishRx_rtt : s.finishRx.rtt = s.rtt := rfl
@[simp] theorem finishRx_rx : s.finishRx.rx = { s.rx with state := .done } := rfl
@[simp] theorem finishRx_ck : s.finishRx.ck = s.ck := rfl
@[simp] theorem finishRx_status : s.finishRx.status = s.status ||| StatusBit.rxDone.mask := rfl
@[simp] theorem finishRx_irqEn : s.finishRx.irqEn = s.irqEn := rfl
@[simp] theorem finishRx_cmdCause : s.finishRx.cmdCause = s.cmdCause := rfl
@[simp] theorem finishRx_now : s.finishRx.now = s.now := rfl
@[simp] theorem finishRx_nowHiL : s.finishRx.nowHiL = s.nowHiL := rfl
@[simp] theorem finishRx_sendTimeHiL : s.finishRx.sendTimeHiL = s.sendTimeHiL := rfl
@[simp] theorem finishRx_xferTimeHiL : s.finishRx.xferTimeHiL = s.xferTimeHiL := rfl
@[simp] theorem finishRx_mem : s.finishRx.mem = s.mem := rfl
@[simp] theorem finishRx_dtx : s.finishRx.dtx = s.dtx := rfl
@[simp] theorem finishRx_atx : s.finishRx.atx = s.atx := rfl
@[simp] theorem finishRx_log : s.finishRx.log = s.log := rfl
@[simp] theorem finishRx_hostResp : s.finishRx.hostResp = s.hostResp := rfl
@[simp] theorem finishRx_inputs : s.finishRx.inputs = s.inputs := rfl
@[simp] theorem finishRx_turn : s.finishRx.turn = s.turn := rfl
@[simp] theorem finishRx_resets : s.finishRx.resets = s.resets := rfl
@[simp] theorem finishRx_build : s.finishRx.build = s.build := rfl

/-! ### dropMalformed -/

@[simp] theorem dropMalformed_cfg : s.dropMalformed.cfg = s.cfg := rfl
@[simp] theorem dropMalformed_tx : s.dropMalformed.tx = s.tx := rfl
@[simp] theorem dropMalformed_rtt : s.dropMalformed.rtt = s.rtt := rfl
@[simp] theorem dropMalformed_rx : s.dropMalformed.rx = { s.rx with dropMalf := sat32 (s.rx.dropMalf.toNat + 1) } := rfl
@[simp] theorem dropMalformed_ck : s.dropMalformed.ck = s.ck := rfl
@[simp] theorem dropMalformed_status : s.dropMalformed.status = s.status ||| StatusBit.rxDrop.mask := rfl
@[simp] theorem dropMalformed_irqEn : s.dropMalformed.irqEn = s.irqEn := rfl
@[simp] theorem dropMalformed_cmdCause : s.dropMalformed.cmdCause = s.cmdCause := rfl
@[simp] theorem dropMalformed_now : s.dropMalformed.now = s.now := rfl
@[simp] theorem dropMalformed_nowHiL : s.dropMalformed.nowHiL = s.nowHiL := rfl
@[simp] theorem dropMalformed_sendTimeHiL : s.dropMalformed.sendTimeHiL = s.sendTimeHiL := rfl
@[simp] theorem dropMalformed_xferTimeHiL : s.dropMalformed.xferTimeHiL = s.xferTimeHiL := rfl
@[simp] theorem dropMalformed_mem : s.dropMalformed.mem = s.mem := rfl
@[simp] theorem dropMalformed_dtx : s.dropMalformed.dtx = s.dtx := rfl
@[simp] theorem dropMalformed_atx : s.dropMalformed.atx = s.atx := rfl
@[simp] theorem dropMalformed_log : s.dropMalformed.log = s.log := rfl
@[simp] theorem dropMalformed_hostResp : s.dropMalformed.hostResp = s.hostResp := rfl
@[simp] theorem dropMalformed_inputs : s.dropMalformed.inputs = s.inputs := rfl
@[simp] theorem dropMalformed_turn : s.dropMalformed.turn = s.turn := rfl
@[simp] theorem dropMalformed_resets : s.dropMalformed.resets = s.resets := rfl
@[simp] theorem dropMalformed_build : s.dropMalformed.build = s.build := rfl

/-! ### dropCorrupt -/

@[simp] theorem dropCorrupt_cfg : s.dropCorrupt.cfg = s.cfg := rfl
@[simp] theorem dropCorrupt_tx : s.dropCorrupt.tx = s.tx := rfl
@[simp] theorem dropCorrupt_rtt : s.dropCorrupt.rtt = s.rtt := rfl
@[simp] theorem dropCorrupt_rx : s.dropCorrupt.rx = { s.rx with dropCksum := sat32 (s.rx.dropCksum.toNat + 1) } := rfl
@[simp] theorem dropCorrupt_ck : s.dropCorrupt.ck = s.ck := rfl
@[simp] theorem dropCorrupt_status : s.dropCorrupt.status = s.status ||| StatusBit.rxDrop.mask := rfl
@[simp] theorem dropCorrupt_irqEn : s.dropCorrupt.irqEn = s.irqEn := rfl
@[simp] theorem dropCorrupt_cmdCause : s.dropCorrupt.cmdCause = s.cmdCause := rfl
@[simp] theorem dropCorrupt_now : s.dropCorrupt.now = s.now := rfl
@[simp] theorem dropCorrupt_nowHiL : s.dropCorrupt.nowHiL = s.nowHiL := rfl
@[simp] theorem dropCorrupt_sendTimeHiL : s.dropCorrupt.sendTimeHiL = s.sendTimeHiL := rfl
@[simp] theorem dropCorrupt_xferTimeHiL : s.dropCorrupt.xferTimeHiL = s.xferTimeHiL := rfl
@[simp] theorem dropCorrupt_mem : s.dropCorrupt.mem = s.mem := rfl
@[simp] theorem dropCorrupt_dtx : s.dropCorrupt.dtx = s.dtx := rfl
@[simp] theorem dropCorrupt_atx : s.dropCorrupt.atx = s.atx := rfl
@[simp] theorem dropCorrupt_log : s.dropCorrupt.log = s.log := rfl
@[simp] theorem dropCorrupt_hostResp : s.dropCorrupt.hostResp = s.hostResp := rfl
@[simp] theorem dropCorrupt_inputs : s.dropCorrupt.inputs = s.inputs := rfl
@[simp] theorem dropCorrupt_turn : s.dropCorrupt.turn = s.turn := rfl
@[simp] theorem dropCorrupt_resets : s.dropCorrupt.resets = s.resets := rfl
@[simp] theorem dropCorrupt_build : s.dropCorrupt.build = s.build := rfl

/-! ### retransmit -/

@[simp] theorem retransmit_cfg : s.retransmit.cfg = s.cfg := rfl
@[simp] theorem retransmit_tx : s.retransmit.tx = s.tx.retransmitted s.now := rfl
@[simp] theorem retransmit_rtt : s.retransmit.rtt = s.rtt := rfl
@[simp] theorem retransmit_rx : s.retransmit.rx = s.rx := rfl
@[simp] theorem retransmit_ck : s.retransmit.ck = s.ck := rfl
@[simp] theorem retransmit_status : s.retransmit.status = s.status ||| StatusBit.txRetx.mask := rfl
@[simp] theorem retransmit_irqEn : s.retransmit.irqEn = s.irqEn := rfl
@[simp] theorem retransmit_cmdCause : s.retransmit.cmdCause = s.cmdCause := rfl
@[simp] theorem retransmit_now : s.retransmit.now = s.now := rfl
@[simp] theorem retransmit_nowHiL : s.retransmit.nowHiL = s.nowHiL := rfl
@[simp] theorem retransmit_sendTimeHiL : s.retransmit.sendTimeHiL = s.sendTimeHiL := rfl
@[simp] theorem retransmit_xferTimeHiL : s.retransmit.xferTimeHiL = s.xferTimeHiL := rfl
@[simp] theorem retransmit_mem : s.retransmit.mem = s.mem := rfl
@[simp] theorem retransmit_dtx : s.retransmit.dtx = s.dtx ++ [s.retained] := rfl
@[simp] theorem retransmit_atx : s.retransmit.atx = s.atx := rfl
@[simp] theorem retransmit_log : s.retransmit.log = s.log := rfl
@[simp] theorem retransmit_hostResp : s.retransmit.hostResp = s.hostResp := rfl
@[simp] theorem retransmit_inputs : s.retransmit.inputs = s.inputs := rfl
@[simp] theorem retransmit_turn : s.retransmit.turn = s.turn := rfl
@[simp] theorem retransmit_resets : s.retransmit.resets = s.resets := rfl
@[simp] theorem retransmit_build : s.retransmit.build = s.build := rfl

/-! ### transmit -/

@[simp] theorem transmit_cfg (k : Nat) : (s.transmit k).cfg = s.cfg := rfl
@[simp] theorem transmit_tx (k : Nat) : (s.transmit k).tx = s.tx.transmitted s.cfg.txLen.toNat k s.now := rfl
@[simp] theorem transmit_rtt (k : Nat) : (s.transmit k).rtt = s.rtt := rfl
@[simp] theorem transmit_rx (k : Nat) : (s.transmit k).rx = s.rx := rfl
@[simp] theorem transmit_ck (k : Nat) : (s.transmit k).ck = s.ck := rfl
@[simp] theorem transmit_status (k : Nat) : (s.transmit k).status = s.status := rfl
@[simp] theorem transmit_irqEn (k : Nat) : (s.transmit k).irqEn = s.irqEn := rfl
@[simp] theorem transmit_cmdCause (k : Nat) : (s.transmit k).cmdCause = s.cmdCause := rfl
@[simp] theorem transmit_now (k : Nat) : (s.transmit k).now = s.now := rfl
@[simp] theorem transmit_nowHiL (k : Nat) : (s.transmit k).nowHiL = s.nowHiL := rfl
@[simp] theorem transmit_sendTimeHiL (k : Nat) : (s.transmit k).sendTimeHiL = s.sendTimeHiL := rfl
@[simp] theorem transmit_xferTimeHiL (k : Nat) : (s.transmit k).xferTimeHiL = s.xferTimeHiL := rfl
@[simp] theorem transmit_mem (k : Nat) : (s.transmit k).mem = s.mem.put .txSegbuf ((s.mem.get .txSegbuf).write 0 (s.segment k)) := rfl
@[simp] theorem transmit_dtx (k : Nat) : (s.transmit k).dtx = s.dtx ++ [s.segment k] := rfl
@[simp] theorem transmit_atx (k : Nat) : (s.transmit k).atx = s.atx := rfl
@[simp] theorem transmit_log (k : Nat) : (s.transmit k).log = s.log := rfl
@[simp] theorem transmit_hostResp (k : Nat) : (s.transmit k).hostResp = s.hostResp := rfl
@[simp] theorem transmit_inputs (k : Nat) : (s.transmit k).inputs = s.inputs := rfl
@[simp] theorem transmit_turn (k : Nat) : (s.transmit k).turn = s.turn := rfl
@[simp] theorem transmit_resets (k : Nat) : (s.transmit k).resets = s.resets := rfl
@[simp] theorem transmit_build (k : Nat) : (s.transmit k).build = s.build := rfl

/-! ### putEncoded -/

@[simp] theorem putEncoded_cfg (d : Datagram) : (s.putEncoded d).cfg = s.cfg := rfl
@[simp] theorem putEncoded_tx (d : Datagram) : (s.putEncoded d).tx = s.tx := rfl
@[simp] theorem putEncoded_rtt (d : Datagram) : (s.putEncoded d).rtt = s.rtt := rfl
@[simp] theorem putEncoded_rx (d : Datagram) : (s.putEncoded d).rx = s.rx := rfl
@[simp] theorem putEncoded_ck (d : Datagram) : (s.putEncoded d).ck = { s.ck with
      len := 576, result := be16 d 16, segCksum := be16 d 16, segLen := s.encodeLength } := rfl
@[simp] theorem putEncoded_status (d : Datagram) : (s.putEncoded d).status = s.status := rfl
@[simp] theorem putEncoded_irqEn (d : Datagram) : (s.putEncoded d).irqEn = s.irqEn := rfl
@[simp] theorem putEncoded_cmdCause (d : Datagram) : (s.putEncoded d).cmdCause = s.cmdCause := rfl
@[simp] theorem putEncoded_now (d : Datagram) : (s.putEncoded d).now = s.now := rfl
@[simp] theorem putEncoded_nowHiL (d : Datagram) : (s.putEncoded d).nowHiL = s.nowHiL := rfl
@[simp] theorem putEncoded_sendTimeHiL (d : Datagram) : (s.putEncoded d).sendTimeHiL = s.sendTimeHiL := rfl
@[simp] theorem putEncoded_xferTimeHiL (d : Datagram) : (s.putEncoded d).xferTimeHiL = s.xferTimeHiL := rfl
@[simp] theorem putEncoded_mem (d : Datagram) : (s.putEncoded d).mem = s.mem.put .ckBuf ((s.mem.get .ckBuf).write 0 d) := rfl
@[simp] theorem putEncoded_dtx (d : Datagram) : (s.putEncoded d).dtx = s.dtx := rfl
@[simp] theorem putEncoded_atx (d : Datagram) : (s.putEncoded d).atx = s.atx := rfl
@[simp] theorem putEncoded_log (d : Datagram) : (s.putEncoded d).log = s.log := rfl
@[simp] theorem putEncoded_hostResp (d : Datagram) : (s.putEncoded d).hostResp = s.hostResp := rfl
@[simp] theorem putEncoded_inputs (d : Datagram) : (s.putEncoded d).inputs = s.inputs := rfl
@[simp] theorem putEncoded_turn (d : Datagram) : (s.putEncoded d).turn = s.turn := rfl
@[simp] theorem putEncoded_resets (d : Datagram) : (s.putEncoded d).resets = s.resets := rfl
@[simp] theorem putEncoded_build (d : Datagram) : (s.putEncoded d).build = s.build := rfl

/-! ### deliver -/

@[simp] theorem deliver_cfg (d : Datagram) : (s.deliver d).cfg = s.cfg := rfl
@[simp] theorem deliver_tx (d : Datagram) : (s.deliver d).tx = s.tx := rfl
@[simp] theorem deliver_rtt (d : Datagram) : (s.deliver d).rtt = s.rtt := rfl
@[simp] theorem deliver_rx (d : Datagram) : (s.deliver d).rx = { s.rx with
      bytes := sat32 (s.rx.bytes.toNat + (decodeSeg d).payloadLength.toNat)
      segs := sat32 (s.rx.segs.toNat + 1)
      lastAck := (decodeSeg d).ackNumber } := rfl
@[simp] theorem deliver_ck (d : Datagram) : (s.deliver d).ck = s.ck := rfl
@[simp] theorem deliver_status (d : Datagram) : (s.deliver d).status = s.status := rfl
@[simp] theorem deliver_irqEn (d : Datagram) : (s.deliver d).irqEn = s.irqEn := rfl
@[simp] theorem deliver_cmdCause (d : Datagram) : (s.deliver d).cmdCause = s.cmdCause := rfl
@[simp] theorem deliver_now (d : Datagram) : (s.deliver d).now = s.now := rfl
@[simp] theorem deliver_nowHiL (d : Datagram) : (s.deliver d).nowHiL = s.nowHiL := rfl
@[simp] theorem deliver_sendTimeHiL (d : Datagram) : (s.deliver d).sendTimeHiL = s.sendTimeHiL := rfl
@[simp] theorem deliver_xferTimeHiL (d : Datagram) : (s.deliver d).xferTimeHiL = s.xferTimeHiL := rfl
@[simp] theorem deliver_mem (d : Datagram) : (s.deliver d).mem = 
    s.mem.put .rxMem ((s.mem.get .rxMem).write s.rx.bytes.toNat (payloadOf d (decodeSeg d).payloadLength.toNat)) := rfl
@[simp] theorem deliver_dtx (d : Datagram) : (s.deliver d).dtx = s.dtx := rfl
@[simp] theorem deliver_atx (d : Datagram) : (s.deliver d).atx = s.atx ++ [(decodeSeg d).ackNumber] := rfl
@[simp] theorem deliver_log (d : Datagram) : (s.deliver d).log = s.log ++ [rxRecord (decodeSeg d) s.now] := rfl
@[simp] theorem deliver_hostResp (d : Datagram) : (s.deliver d).hostResp = s.hostResp := rfl
@[simp] theorem deliver_inputs (d : Datagram) : (s.deliver d).inputs = s.inputs := rfl
@[simp] theorem deliver_turn (d : Datagram) : (s.deliver d).turn = s.turn := rfl
@[simp] theorem deliver_resets (d : Datagram) : (s.deliver d).resets = s.resets := rfl
@[simp] theorem deliver_build (d : Datagram) : (s.deliver d).build = s.build := rfl

/-! ### sampleAndLog -/

@[simp] theorem sampleAndLog_cfg : s.sampleAndLog.cfg = s.cfg := rfl
@[simp] theorem sampleAndLog_tx : s.sampleAndLog.tx = s.tx := rfl
@[simp] theorem sampleAndLog_rtt : s.sampleAndLog.rtt = s.rtt.onSample s.cfg.firstOvr s.tx.elapsed := rfl
@[simp] theorem sampleAndLog_rx : s.sampleAndLog.rx = s.rx := rfl
@[simp] theorem sampleAndLog_ck : s.sampleAndLog.ck = s.ck := rfl
@[simp] theorem sampleAndLog_status : s.sampleAndLog.status = s.status := rfl
@[simp] theorem sampleAndLog_irqEn : s.sampleAndLog.irqEn = s.irqEn := rfl
@[simp] theorem sampleAndLog_cmdCause : s.sampleAndLog.cmdCause = s.cmdCause := rfl
@[simp] theorem sampleAndLog_now : s.sampleAndLog.now = s.now := rfl
@[simp] theorem sampleAndLog_nowHiL : s.sampleAndLog.nowHiL = s.nowHiL := rfl
@[simp] theorem sampleAndLog_sendTimeHiL : s.sampleAndLog.sendTimeHiL = s.sendTimeHiL := rfl
@[simp] theorem sampleAndLog_xferTimeHiL : s.sampleAndLog.xferTimeHiL = s.xferTimeHiL := rfl
@[simp] theorem sampleAndLog_mem : s.sampleAndLog.mem = s.mem := rfl
@[simp] theorem sampleAndLog_dtx : s.sampleAndLog.dtx = s.dtx := rfl
@[simp] theorem sampleAndLog_atx : s.sampleAndLog.atx = s.atx := rfl
@[simp] theorem sampleAndLog_log : s.sampleAndLog.log = s.log ++ [(s.onSample s.tx.elapsed).txRecord] := rfl
@[simp] theorem sampleAndLog_hostResp : s.sampleAndLog.hostResp = s.hostResp := rfl
@[simp] theorem sampleAndLog_inputs : s.sampleAndLog.inputs = s.inputs := rfl
@[simp] theorem sampleAndLog_turn : s.sampleAndLog.turn = s.turn := rfl
@[simp] theorem sampleAndLog_resets : s.sampleAndLog.resets = s.resets := rfl
@[simp] theorem sampleAndLog_build : s.sampleAndLog.build = s.build := rfl

end Sys2Proof.Machine.State
end

