-- ==== Sys2Proof/Laws/Memory.lean ====
section
/-! SUPPORT. The laws of the byte memories: what a read after a write gives, that a write keeps the canonical form and the bounds,
that the walk of readBytes is the bytewise read, and that equal contents are equal data. -/

/-! The constants of R7 in the one spelling that statements use. -/

@[simp] theorem Sys2Proof.Config.mss_eq : Sys2Proof.Config.mss = 556 := rfl

@[simp] theorem Sys2Proof.Config.headerSize_eq : Sys2Proof.Config.headerSize = 20 := rfl

@[simp] theorem Sys2Proof.Config.packetSize_eq : Sys2Proof.Config.packetSize = 576 := rfl

namespace Sys2Proof.Machine

/-! ## Listings -/

@[simp] theorem Mems.get_put_self (m : Mems) (sp : Space) (x : Memory) : (m.put sp x).get sp = x := by
  cases sp <;> rfl

theorem Mems.get_put (m : Mems) (sp sp' : Space) (x : Memory) :
    (m.put sp x).get sp' = if sp' = sp then x else m.get sp' := by
  cases sp <;> cases sp' <;> rfl

namespace Memory

theorem peek_append (m m' : Memory) (a : Nat) : peek (m ++ m') a = (peek m a).or (peek m' a) := by
  induction m with
  | nil => simp [peek]
  | cons c m ih =>
    simp only [List.cons_append, peek]
    split <;> simp [ih]

theorem peek_filter (p : Nat → Bool) (m : Memory) (a : Nat) :
    peek (m.filter (fun c => p c.1)) a = if p a then peek m a else none := by
  induction m with
  | nil => simp [peek]
  | cons c m ih =>
    by_cases hc : c.1 = a
    · subst hc
      by_cases hp : p c.1 <;> simp [hp, peek, ih]
    · by_cases hp : p c.1 <;> simp [hp, peek, ih, hc]

theorem peek_cells (bs : List Byte) (a x : Nat) : peek (cells a bs) x = if a ≤ x then bs[x - a]? else none := by
  induction bs generalizing a with
  | nil => simp [cells, peek]
  | cons b bs ih =>
    simp only [cells, peek, ih]
    by_cases h : a = x
    · subst h; simp
    · by_cases h' : a ≤ x
      · rw [if_neg h, if_pos (by omega), if_pos h', show x - a = (x - (a + 1)) + 1 by omega]
        simp
      · rw [if_neg h, if_neg (by omega), if_neg h']

/-- What a write leaves at each offset. -/
theorem peek_write (m : Memory) (a : Nat) (bs : List Byte) (x : Nat) :
    peek (m.write a bs) x = if a ≤ x ∧ x < a + bs.length then bs[x - a]? else peek m x := by
  simp only [write, peek_append, peek_cells, peek_filter (fun y => Nat.blt y a),
    peek_filter (fun y => Nat.ble (a + bs.length) y), Nat.blt_eq, Nat.ble_eq]
  by_cases h1 : x < a
  · have h2 : ¬ a ≤ x := by omega
    have h3 : ¬ a + bs.length ≤ x := by omega
    simp [h1, h2, h3]
  · have h2 : a ≤ x := by omega
    by_cases h3 : a + bs.length ≤ x
    · have h4 : ¬ x < a + bs.length := by omega
      simp [h1, h2, h3, h4, List.getElem?_eq_none (show bs.length ≤ x - a by omega)]
    · have h4 : x < a + bs.length := by omega
      simp [h1, h2, h3, h4]

/-! ## The canonical form -/

theorem wf_iff_pairwise (m : Memory) : m.wf = true ↔ m.Pairwise (fun c d => c.1 < d.1) := by
  induction m with
  | nil => simp [wf]
  | cons c m ih =>
    cases m with
    | nil => simp [wf]
    | cons d m =>
      simp only [wf, Bool.and_eq_true, decide_eq_true_eq, ih]
      constructor
      · rintro ⟨hcd, hp⟩
        refine List.Pairwise.cons ?_ hp
        intro e he
        rcases List.mem_cons.mp he with rfl | he
        · exact hcd
        · exact hcd.trans ((List.pairwise_cons.mp hp).1 e he)
      · intro hp
        obtain ⟨hc, hp⟩ := List.pairwise_cons.mp hp
        exact ⟨hc d (by simp), hp⟩

theorem mem_cells {bs : List Byte} {a : Nat} {c : Host.Cell} (h : c ∈ cells a bs) : a ≤ c.1 ∧ c.1 < a + bs.length := by
  induction bs generalizing a with
  | nil => simp [cells] at h
  | cons b bs ih =>
    simp only [cells, List.mem_cons] at h
    rcases h with rfl | h
    · simp
    · have := ih h
      simp only [List.length_cons]
      omega

theorem pairwise_cells (bs : List Byte) (a : Nat) : (cells a bs).Pairwise (fun c d => c.1 < d.1) := by
  induction bs generalizing a with
  | nil => simp [cells]
  | cons b bs ih =>
    refine List.Pairwise.cons ?_ (ih (a + 1))
    intro c hc
    have := mem_cells hc
    simp only
    omega

/-- Every write keeps the canonical form. -/
theorem wf_write {m : Memory} (h : m.wf = true) (a : Nat) (bs : List Byte) : (m.write a bs).wf = true := by
  rw [wf_iff_pairwise] at h ⊢
  simp only [write, List.pairwise_append]
  refine ⟨⟨h.filter _, pairwise_cells bs a, ?_⟩, h.filter _, ?_⟩
  · intro c hc d hd
    have := mem_cells hd
    simp only [List.mem_filter, Nat.blt_eq] at hc
    omega
  · intro c hc d hd
    simp only [List.mem_filter, Nat.ble_eq] at hd
    rcases List.mem_append.mp hc with hc | hc
    · simp only [List.mem_filter, Nat.blt_eq] at hc
      omega
    · have := mem_cells hc
      omega

/-- A write inside the bounds keeps them. -/
theorem bound_write {m : Memory} {n : Nat} (h : ∀ c ∈ m, c.1 < n) {a : Nat} {bs : List Byte} (hb : a + bs.length ≤ n) :
    ∀ c ∈ m.write a bs, c.1 < n := by
  intro c hc
  simp only [write, List.mem_append, List.mem_filter] at hc
  rcases hc with (hc | hc) | hc
  · exact h c hc.1
  · have := mem_cells hc
    omega
  · exact h c hc.1

theorem peek_eq_none_of_lt {m : Memory} {a : Nat} (h : ∀ c ∈ m, a < c.1) : peek m a = none := by
  induction m with
  | nil => rfl
  | cons c m ih =>
    have hc := h c (by simp)
    rw [peek, if_neg (by omega)]
    exact ih (fun d hd => h d (by simp [hd]))

/-- Equal contents are equal data. -/
theorem ext_of_peek {m m' : Memory} (h : m.wf = true) (h' : m'.wf = true) (e : ∀ a, peek m a = peek m' a) : m = m' := by
  rw [wf_iff_pairwise] at h h'
  induction m generalizing m' with
  | nil =>
    cases m' with
    | nil => rfl
    | cons d m' => simpa [peek] using e d.1
  | cons c m ih =>
    cases m' with
    | nil => simpa [peek] using e c.1
    | cons d m' =>
      obtain ⟨hc, hm⟩ := List.pairwise_cons.mp h
      obtain ⟨hd, hm'⟩ := List.pairwise_cons.mp h'
      have hcd : c.1 = d.1 := by
        rcases Nat.lt_trichotomy c.1 d.1 with hlt | heq | hgt
        · have hn : peek (d :: m') c.1 = none :=
            peek_eq_none_of_lt (fun x hx => by
              rcases List.mem_cons.mp hx with rfl | hx
              · exact hlt
              · exact hlt.trans (hd x hx))
          have := e c.1
          rw [hn] at this
          simp [peek] at this
        · exact heq
        · have hn : peek (c :: m) d.1 = none :=
            peek_eq_none_of_lt (fun x hx => by
              rcases List.mem_cons.mp hx with rfl | hx
              · exact hgt
              · exact hgt.trans (hc x hx))
          have := e d.1
          rw [hn] at this
          simp [peek] at this
      have hv : c.2 = d.2 := by
        have := e c.1
        simpa [peek, hcd] using this
      have hrest : m = m' := by
        refine ih hm hm' (fun a => ?_)
        by_cases ha : c.1 = a
        · subst ha
          rw [peek_eq_none_of_lt hc, peek_eq_none_of_lt (fun x hx => by have := hd x hx; omega)]
        · have := e a
          simpa [peek, ha, show ¬ d.1 = a by omega] using this
      rw [hrest, show c = d from Prod.ext hcd hv]

/-! ## The walk -/

theorem length_walk (draw : Nat → Byte) (n : Nat) (m : Memory) (a : Nat) : (walk draw n m a).length = n := by
  induction n generalizing m a with
  | zero => rfl
  | succ n ih =>
    cases m with
    | nil => simp [walk, ih]
    | cons c m => cases h : Nat.beq c.1 a <;> simp [walk, h, ih]

theorem walk_eq_map (draw : Nat → Byte) (n : Nat) (m : Memory) (a : Nat) (h : m.Pairwise (fun c d => c.1 < d.1))
    (hb : ∀ c ∈ m, a ≤ c.1) : walk draw n m a = (List.range n).map (fun k => (peek m (a + k)).getD (draw (a + k))) := by
  induction n generalizing m a with
  | zero => rfl
  | succ n ih =>
    rw [List.range_succ_eq_map, List.map_cons, List.map_map]
    cases m with
    | nil =>
      rw [walk, ih [] (a + 1) List.Pairwise.nil (by simp)]
      simp [peek, Function.comp_def, Nat.add_comm 1, Nat.add_assoc]
    | cons c m =>
      obtain ⟨hc, hm⟩ := List.pairwise_cons.mp h
      by_cases hca : c.1 = a
      · subst hca
        rw [walk, Nat.beq_refl, cond_true, ih m (c.1 + 1) hm (fun d hd => hc d hd)]
        simp only [peek, Nat.add_zero, if_true, Option.getD_some, List.cons.injEq, true_and]
        refine List.map_congr_left (fun k _ => ?_)
        simp only [Function.comp, if_neg (show ¬ c.1 = c.1 + k.succ by omega)]
        rw [show c.1 + 1 + k = c.1 + k.succ by omega]
      · have hlt : a < c.1 := Nat.lt_of_le_of_ne (hb c (by simp)) (fun e => hca e.symm)
        rw [walk, show Nat.beq c.1 a = false from Bool.eq_false_iff.mpr (fun e => hca (Nat.eq_of_beq_eq_true e)), cond_false,
          ih (c :: m) (a + 1) h (fun d hd => by
            rcases List.mem_cons.mp hd with rfl | hd
            · exact hlt
            · exact hlt.trans (hc d hd))]
        rw [List.cons.injEq]
        constructor
        · rw [peek_eq_none_of_lt (fun d hd => by
            rcases List.mem_cons.mp hd with rfl | hd
            · exact hlt
            · exact hlt.trans (hc d hd))]
          rfl
        · refine List.map_congr_left (fun k _ => ?_)
          simp only [Function.comp]
          rw [show a + 1 + k = a + k.succ by omega]

end Memory

namespace State

/-- readBytes is the bytewise read, in every state. -/
theorem readBytes_eq_map (s : State) (sp : Space) (a n : Nat) :
    s.readBytes sp a n = (List.range n).map (fun k => s.readByte sp (a + k)) := by
  unfold readBytes
  cases h : (s.mem.get sp).wf with
  | false => rfl
  | true =>
    rw [cond_true, Memory.walk_eq_map]
    · refine List.map_congr_left (fun k _ => ?_)
      rw [Memory.peek_filter (fun y => Nat.ble a y)]
      simp [readByte, Nat.ble_eq]
    · exact ((Memory.wf_iff_pairwise _).mp h).filter _
    · intro c hc
      simpa [Nat.ble_eq] using (List.mem_filter.mp hc).2

@[simp] theorem length_readBytes (s : State) (sp : Space) (a n : Nat) : (s.readBytes sp a n).length = n := by
  simp [readBytes_eq_map]

theorem getElem?_readBytes (s : State) (sp : Space) (a n k : Nat) (h : k < n) :
    (s.readBytes sp a n)[k]? = some (s.readByte sp (a + k)) := by
  simp [readBytes_eq_map, h]

/-- A byte read depends only on the memory's contents and the number of resets. -/
theorem readByte_congr {s t : State} {sp : Space} (hm : t.mem.get sp = s.mem.get sp) (hr : t.resets = s.resets) (a : Nat) :
    t.readByte sp a = s.readByte sp a := by
  simp [readByte, hm, hr]

theorem readBytes_congr {s t : State} {sp : Space} (hm : t.mem.get sp = s.mem.get sp) (hr : t.resets = s.resets) (a n : Nat) :
    t.readBytes sp a n = s.readBytes sp a n := by
  simp [readBytes_eq_map, readByte_congr hm hr]

/-- Read after write, in the memory written and in every other. -/
theorem readByte_writeBytes (s : State) (sp sp' : Space) (a x : Nat) (bs : List Byte) :
    (s.writeBytes sp a bs).readByte sp' x =
      if sp' = sp ∧ a ≤ x ∧ x < a + bs.length then bs.getD (x - a) 0 else s.readByte sp' x := by
  simp only [readByte, writeBytes_mem, writeBytes_resets, Mems.get_put]
  by_cases hsp : sp' = sp
  · subst hsp
    simp only [if_true, Memory.peek_write, true_and]
    by_cases hx : a ≤ x ∧ x < a + bs.length
    · have hlt : x - a < bs.length := by omega
      simp [hx, List.getD, List.getElem?_eq_getElem hlt]
    · simp [hx]
  · simp [hsp]

/-- Bytes written are the bytes read back. -/
theorem readBytes_writeBytes_self (s : State) (sp : Space) (a : Nat) (bs : List Byte) :
    (s.writeBytes sp a bs).readBytes sp a bs.length = bs := by
  apply List.ext_getElem?
  intro k
  by_cases hk : k < bs.length
  · rw [getElem?_readBytes _ _ _ _ _ hk, readByte_writeBytes]
    simp [hk]
  · rw [List.getElem?_eq_none (by simpa using hk), List.getElem?_eq_none (by omega)]

/-- A write elsewhere leaves the bytes read. -/
theorem readBytes_writeBytes_ne (s : State) {sp sp' : Space} (h : sp' ≠ sp) (a x n : Nat) (bs : List Byte) :
    (s.writeBytes sp a bs).readBytes sp' x n = s.readBytes sp' x n :=
  readBytes_congr (t := s.writeBytes sp a bs) (by simp [Mems.get_put, h]) (by simp) x n

end State

end Sys2Proof.Machine
end

