-- ==== Sys2Proof/Laws/Bus.lean ====
section
/-! SUPPORT. What the HOST port reaches: the target of every kind of host access, and the answer of each. -/

namespace Sys2Proof.Machine

open Sys2Proof.Safety

@[simp] theorem Reg.ofOffset_offset (r : Reg) : Reg.ofOffset r.offset = some r := by
  cases r <;> rfl

theorem Reg.offset_lt (r : Reg) : r.offset < 0x100 := by
  cases r <;> decide

theorem Reg.offset_mod (r : Reg) : r.offset % 4 = 0 := by
  cases r <;> rfl

theorem Reg.offset_of_ofOffset {o : Nat} {r : Reg} (h : Reg.ofOffset o = some r) : r.offset = o := by
  have hb := List.find?_some h
  exact Nat.eq_of_beq_eq_true hb

theorem Reg.mem_registerOffsets (r : Reg) : r.offset ∈ registerOffsets := by
  cases r <;> decide

/-- Every offset of the register map is some register's. -/
theorem exists_reg_of_mem {o : Nat} (h : o ∈ registerOffsets) : ∃ r : Reg, r.offset = o := by
  have all : ∀ o ∈ registerOffsets, (Reg.ofOffset o).isSome = true := by decide
  obtain ⟨r, hr⟩ := Option.isSome_iff_exists.mp (all o h)
  exact ⟨r, Reg.offset_of_ofOffset hr⟩

/-- The target of a register access. -/
theorem hostTarget_reg {b : Config.Build} {addr : HostAddr} {r : Reg} (h : addr.toNat = r.offset) :
    hostTarget b addr 4 = some (.reg r) := by
  simp [hostTarget, h, r.offset_lt, r.offset_mod]

theorem Build.wf_iff (b : Config.Build) :
    b.wf = true ↔ 1 ≤ b.txMemSize ∧ b.txMemSize ≤ 65536 ∧ 1 ≤ b.rxMemSize ∧ b.rxMemSize ≤ 65536 := by
  simp [Config.Build.wf, and_assoc]

/-- The target of a window access. -/
theorem hostTarget_window {b : Config.Build} (hb : b.wf = true) {addr : HostAddr} {n : Nat} {sp : Space} {o : Nat}
    (h : InWindow b addr n sp o) : hostTarget b addr n = some (.window sp o) := by
  obtain ⟨ha, hn, hal, hs⟩ := h
  obtain ⟨h1, h2, h3, h4⟩ := (Build.wf_iff b).mp hb
  have hpos : 0 < n := by omega
  have hlow : ¬ addr.toNat < 0x100 := by cases sp <;> simp only [windowBase] at ha <;> omega
  rw [hostTarget, if_neg hlow, if_pos ⟨hn, hal⟩]
  have holds_iff (w : Window) : w.holds addr.toNat n = true ↔ w.base ≤ addr.toNat ∧ addr.toNat + n ≤ w.base + w.size := by
    simp [Window.holds, Nat.ble_eq]
  have hit (w : Window) (ws : List Window) (hw : w.base ≤ addr.toNat ∧ addr.toNat + n ≤ w.base + w.size) :
      (w :: ws).find? (fun w => w.holds addr.toNat n) = some w := by
    simp [(holds_iff w).mpr hw]
  have miss (w : Window) (ws : List Window) (hw : ¬ (w.base ≤ addr.toNat ∧ addr.toNat + n ≤ w.base + w.size)) :
      (w :: ws).find? (fun w => w.holds addr.toNat n) = ws.find? (fun w => w.holds addr.toNat n) := by
    have : w.holds addr.toNat n = false := by
      rw [Bool.eq_false_iff]
      exact fun h => hw ((holds_iff w).mp h)
    simp [this]
  unfold windows
  cases sp <;> simp only [windowBase, spaceSize, Config.packetSize] at ha hs ⊢
  · rw [hit _ _ (by simp only; omega)]
    simp [ha]
  · rw [miss _ _ (by simp only; omega), hit _ _ (by simp only; omega)]
    simp [ha]
  · rw [miss _ _ (by simp only; omega), miss _ _ (by simp only; omega), hit _ _ (by simp only; omega)]
    simp [ha]
  · rw [miss _ _ (by simp only; omega), miss _ _ (by simp only; omega), miss _ _ (by simp only; omega),
      hit _ _ (by simp only; omega)]
    simp [ha]
  · rw [miss _ _ (by simp only; omega), miss _ _ (by simp only; omega), miss _ _ (by simp only; omega),
      miss _ _ (by simp only; omega), hit _ _ (by simp only; omega)]
    simp [ha]

/-- Every admitted access has a target: a register, or a window. -/
theorem target_cases_of_admitted {b : Config.Build} (hb : b.wf = true) {addr : HostAddr} {n : Nat} (h : Admitted b addr.toNat n) :
    (∃ r : Reg, addr.toNat = r.offset ∧ n = 4) ∨ ∃ sp o, InWindow b addr n sp o := by
  rcases h with ⟨hm, hn⟩ | ⟨hlow, hn, hal, hmap⟩
  · obtain ⟨r, hr⟩ := exists_reg_of_mem hm
    exact .inl ⟨r, hr.symm, hn⟩
  · right
    have hfirst := hmap 0 (by omega)
    have hlast := hmap (n - 1) (by omega)
    obtain ⟨h1, h2, h3, h4⟩ := (Build.wf_iff b).mp hb
    unfold MappedByte at hfirst hlast
    unfold InWindow
    rcases hfirst with hf | hf | hf | hf | hf
    · refine ⟨.ckBuf, addr.toNat - 0x1000, ?_⟩
      simp only [windowBase, spaceSize, Config.packetSize]
      omega
    · refine ⟨.txSegbuf, addr.toNat - 0x2000, ?_⟩
      simp only [windowBase, spaceSize, Config.packetSize]
      omega
    · refine ⟨.rxSegbuf, addr.toNat - 0x3000, ?_⟩
      simp only [windowBase, spaceSize, Config.packetSize]
      omega
    · refine ⟨.txMem, addr.toNat - 0x10000, ?_⟩
      simp only [windowBase, spaceSize]
      rcases hn with rfl | rfl | rfl <;> omega
    · refine ⟨.rxMem, addr.toNat - 0x20000, ?_⟩
      simp only [windowBase, spaceSize]
      omega

/-- A target is found only for an admitted access. -/
theorem admitted_of_target {b : Config.Build} {addr : HostAddr} {n : Nat} {g : Target} (h : hostTarget b addr n = some g) :
    Admitted b addr.toNat n := by
  unfold hostTarget at h
  split at h
  · split at h
    · rename_i hn
      obtain ⟨r, hr, _⟩ := Option.map_eq_some_iff.mp h
      exact .inl ⟨Reg.offset_of_ofOffset hr ▸ r.mem_registerOffsets, hn.1⟩
    · cases h
  · rename_i hlow
    split at h
    · rename_i hn
      obtain ⟨w, hw, _⟩ := Option.map_eq_some_iff.mp h
      have hm := List.mem_of_find?_eq_some hw
      have hh := List.find?_some hw
      simp only [Window.holds, Bool.and_eq_true, Nat.ble_eq] at hh
      refine .inr ⟨by omega, hn.1, hn.2, fun k hk => ?_⟩
      simp only [windows, List.mem_cons, List.not_mem_nil, or_false, spaceSize, Config.packetSize] at hm
      unfold MappedByte
      rcases hm with rfl | rfl | rfl | rfl | rfl <;> simp only at hh <;> omega
    · cases h

/-- A bus error is exactly an access that is not admitted (R105). -/
theorem hostTarget_eq_none_iff {b : Config.Build} (hb : b.wf = true) (addr : HostAddr) (n : Nat) :
    hostTarget b addr n = none ↔ ¬ Admitted b addr.toNat n := by
  constructor
  · intro h ha
    rcases target_cases_of_admitted hb ha with ⟨r, hr, rfl⟩ | ⟨sp, o, hw⟩
    · rw [hostTarget_reg hr] at h
      cases h
    · rw [hostTarget_window hb hw] at h
      cases h
  · intro h
    cases hg : hostTarget b addr n with
    | none => rfl
    | some g => exact absurd (admitted_of_target hg) h

/-! ## What each host access does -/

theorem hostRead_reg {s : State} {addr : HostAddr} {r : Reg} (h : addr.toNat = r.offset) :
    hostRead addr 4 s = (s.latchOnRead r).respond (.data (s.regValue r)) := by
  simp [hostRead, hostTarget_reg h]

theorem hostRead_window {s : State} (hb : s.build.wf = true) {addr : HostAddr} {n : Nat} {sp : Space} {o : Nat}
    (h : InWindow s.build addr n sp o) : hostRead addr n s = s.respond (.data (hostValue (s.readBytes sp o n))) := by
  simp [hostRead, hostTarget_window hb h]

theorem hostWrite_reg {s : State} {addr : HostAddr} {r : Reg} (h : addr.toNat = r.offset) (hr : r ≠ .cmd) (v : Word) :
    hostWrite addr 4 v s = .next ((s.writeReg r v).respond .written) := by
  rw [hostWrite, hostTarget_reg h]
  cases r <;> first | rfl | exact absurd rfl hr

theorem hostWrite_cmd (s : State) (v : Word) : hostWrite 0x008 4 v s = runCommand v (s.respond .written) := by
  rw [hostWrite, hostTarget_reg (r := .cmd) rfl]

theorem hostWrite_window {s : State} (hb : s.build.wf = true) {addr : HostAddr} {n : Nat} {sp : Space} {o : Nat}
    (h : InWindow s.build addr n sp o) (v : Word) :
    hostWrite addr n v s = .next ((writeWindow sp o n v s).respond .written) := by
  rw [hostWrite, hostTarget_window hb h]

theorem hostWrite_none {s : State} {addr : HostAddr} {n : Nat} (h : hostTarget s.build addr n = none) (v : Word) :
    hostWrite addr n v s = .next (s.respond .busError) := by
  rw [hostWrite, h]

theorem hostRead_none {s : State} {addr : HostAddr} {n : Nat} (h : hostTarget s.build addr n = none) :
    hostRead addr n s = s.respond .busError := by
  rw [hostRead, h]

end Sys2Proof.Machine
end

