-- ==== Sys2Proof/Laws/Codec.lean ====
section
/-! SUPPORT. What the pure functions of the codec give: lengths, the checksum field, and the saturating arithmetic. -/

namespace Sys2Proof.Machine

/-! ## Saturation

Rewrite a saturated value with these lemmas before omega: a kernel check that unfolds the cap's literal runs deep. -/

theorem toNat_sat32 (n : Nat) : (sat32 n).toNat = min n 0xFFFFFFFF := by
  simp only [sat32, BitVec.toNat_ofNat]
  omega

theorem toNat_sat32_of_le {n : Nat} (h : n ≤ 0xFFFFFFFF) : (sat32 n).toNat = n := by
  rw [toNat_sat32]
  omega

/-! ## Lengths -/

@[simp] theorem length_zeroField (b : Datagram) : (zeroField b).length = b.length := by simp [zeroField]

@[simp] theorem length_putBe16 (b : Datagram) (i : Nat) (v : Half) : (putBe16 b i v).length = b.length := by simp [putBe16]

@[simp] theorem length_header (src dst : Half) (seq ack : Word) (fin : Bool) : (header src dst seq ack fin).length = 20 := rfl

theorem length_unsummed (src dst : Half) (seq ack : Word) (fin : Bool) {p : List Byte} (pad : Byte) (h : p.length ≤ 556) :
    (unsummed src dst seq ack fin p pad).length = 576 := by
  simp only [unsummed, List.length_append, length_header, List.length_replicate, Config.mss]
  omega

theorem length_buildSeg (src dst : Half) (seq ack : Word) (fin : Bool) {p : List Byte} (pad : Byte) (h : p.length ≤ 556) :
    (buildSeg src dst seq ack fin p pad).length = 576 := by
  rw [buildSeg, length_putBe16, length_unsummed _ _ _ _ _ _ h]

theorem length_encodedSegment (s : State) (h : s.encodeLength.toNat ≤ 556) : s.encodedSegment.length = 576 :=
  length_buildSeg _ _ _ _ _ _ (by simpa using h)

theorem segLen_le (len k : Nat) : segLen len k ≤ 556 := by
  simp only [segLen, Config.mss]
  omega

@[simp] theorem length_segment (s : State) (k : Nat) : (s.segment k).length = 576 :=
  length_buildSeg _ _ _ _ _ _ (by simpa using segLen_le _ _)

@[simp] theorem length_retained (s : State) : s.retained.length = 576 := by simp [State.retained]

@[simp] theorem length_hostBytes (n : Nat) (v : Word) : (hostBytes n v).length = n := by simp [hostBytes]

/-! ## The checksum field -/

/-- The bytes of the field do not count (R201). -/
theorem zeroField_putBe16 (b : Datagram) (v : Half) : zeroField (putBe16 b 16 v) = zeroField b := by
  apply List.ext_getElem?
  intro i
  simp only [zeroField, putBe16, List.getElem?_set, List.length_set]
  by_cases h7 : i = 17
  · subst h7
    simp
  · by_cases h6 : i = 16
    · subst h6
      simp
    · simp [Ne.symm h7, Ne.symm h6]

theorem cksum_putBe16 (b : Datagram) (v : Half) : cksum (putBe16 b 16 v) = cksum b := by
  rw [cksum, cksum, zeroField_putBe16]

/-- putBE16 then BE16 at the same place (R14). -/
theorem be16_putBe16 (b : Datagram) (i : Nat) (v : Half) (h : i + 1 < b.length) : be16 (putBe16 b i v) i = v := by
  have h0 : byteAt (putBe16 b i v) i = v.extractLsb' 8 8 := by
    simp [byteAt, putBe16, List.getD_eq_getElem?_getD, show i < b.length by omega]
  have h1 : byteAt (putBe16 b i v) (i + 1) = v.extractLsb' 0 8 := by
    simp [byteAt, putBe16, List.getD_eq_getElem?_getD, h]
  rw [be16, h0, h1]
  apply BitVec.eq_of_getLsbD_eq
  intro j hj
  simp only [BitVec.getLsbD_append, BitVec.getLsbD_extractLsb']
  by_cases h8 : j < 8
  · simp [h8]
  · simp [h8, show j - 8 < 8 by omega, show 8 + (j - 8) = j by omega]

end Sys2Proof.Machine
end

