-- ==== Sys2Proof/Laws/Receiver.lean ====
section
/-! SUPPORT. Everything the receiver's operations can do. -/

namespace Sys2Proof.Machine

/-- A datagram as it is stored in RX_SEGBUF (R381). -/
theorem readBytes_rxSegbuf (s : State) {d : Datagram} (h : d.length = 576) :
    (s.writeBytes .rxSegbuf 0 d).readBytes .rxSegbuf 0 576 = d := by
  have e := State.readBytes_writeBytes_self s .rxSegbuf 0 d
  rwa [h] at e

/-- The outcomes of a datagram on DRX (R375, R380 to R388): not consumed, malformed, corrupt, a payload length above MSS,
overflow, delivered, delivered and finished. -/
theorem onDrx_cases (d : Datagram) (s : State) :
    (s.rx.state ≠ .receiving ∧ onDrx d s = s) ∨
    (s.rx.state = .receiving ∧ d.length ≠ 576 ∧ onDrx d s = s.dropMalformed) ∨
    (s.rx.state = .receiving ∧ d.length = 576 ∧ verify d = false ∧ onDrx d s = (s.writeBytes .rxSegbuf 0 d).dropCorrupt) ∨
    (s.rx.state = .receiving ∧ d.length = 576 ∧ verify d = true ∧ 556 < (decodeSeg d).payloadLength.toNat ∧
      onDrx d s = (s.writeBytes .rxSegbuf 0 d).dropMalformed) ∨
    (s.rx.state = .receiving ∧ d.length = 576 ∧ verify d = true ∧ (decodeSeg d).payloadLength.toNat ≤ 556 ∧
      s.build.rxMemSize < s.rx.bytes.toNat + (decodeSeg d).payloadLength.toNat ∧
      onDrx d s = (s.writeBytes .rxSegbuf 0 d).raiseRx .overflow) ∨
    (s.rx.state = .receiving ∧ d.length = 576 ∧ verify d = true ∧ (decodeSeg d).payloadLength.toNat ≤ 556 ∧
      s.rx.bytes.toNat + (decodeSeg d).payloadLength.toNat ≤ s.build.rxMemSize ∧
      onDrx d s = bif (decodeSeg d).fin then ((s.writeBytes .rxSegbuf 0 d).deliver d).finishRx
        else (s.writeBytes .rxSegbuf 0 d).deliver d) := by
  by_cases h1 : s.rx.state = .receiving
  · by_cases h2 : d.length = 576
    · have e : onDrx d s = (s.writeBytes .rxSegbuf 0 d).checkAndDeliver d := by
        rw [onDrx, if_neg (not_not.mpr h1), if_neg (not_not.mpr h2)]
      cases h3 : verify d with
      | false => simp [h1, h2, e, State.checkAndDeliver, h3]
      | true =>
        by_cases h4 : 556 < (decodeSeg d).payloadLength.toNat
        · simp [h1, h2, h4, e, State.checkAndDeliver, h3]
        · by_cases h5 : s.build.rxMemSize < s.rx.bytes.toNat + (decodeSeg d).payloadLength.toNat
          · simp [h1, h2, h4, h5, Nat.not_lt.mp h4, e, State.checkAndDeliver, h3]
          · simp [h1, h2, h4, h5, Nat.not_lt.mp h4, Nat.not_lt.mp h5, e, State.checkAndDeliver, h3]
    · exact .inr (.inl ⟨h1, h2, by rw [onDrx, if_neg (not_not.mpr h1), if_pos h2]⟩)
  · exact .inl ⟨h1, by rw [onDrx, if_pos h1]⟩

/-- The payload delivered has the length the header gives (R385). -/
theorem length_payloadOf {d : Datagram} {n : Nat} (hd : d.length = 576) (hn : n ≤ 556) : (payloadOf d n).length = n := by
  simp only [payloadOf, List.length_take, List.length_drop, hd, Config.headerSize]
  omega

/-- Delivery writes the payload at RX_MEM[RX_BYTES ..] and no other byte (R385). -/
theorem readByte_deliver (s : State) (d : Datagram) (sp : Space) (a : Nat) :
    (s.deliver d).readByte sp a =
      (s.writeBytes .rxMem s.rx.bytes.toNat (payloadOf d (decodeSeg d).payloadLength.toNat)).readByte sp a :=
  State.readByte_congr rfl rfl a

end Sys2Proof.Machine
end

