-- ==== Sys2Proof/Laws/Sender.lean ====
section
/-! SUPPORT. Everything the sender's operations can do, one lemma per operation. -/

namespace Sys2Proof.Machine

/-- What segment k is depends on the configuration, TX_NSEG and TX_MEM only (R303). -/
theorem State.segment_congr {s t : State} (hc : t.cfg = s.cfg) (hn : t.tx.nseg = s.tx.nseg) (hm : t.mem.txMem = s.mem.txMem)
    (hr : t.resets = s.resets) (k : Nat) : t.segment k = s.segment k := by
  simp only [State.segment, hc, hn]
  rw [State.readBytes_congr (s := s) (t := t) (sp := .txMem) hm hr]

/-- What TX_SEGBUF holds depends on that memory only. -/
theorem State.retained_congr {s t : State} (hm : t.mem.txSegbuf = s.mem.txSegbuf) (hr : t.resets = s.resets) :
    t.retained = s.retained :=
  State.readBytes_congr (sp := .txSegbuf) hm hr _ _

/-- TRANSMIT retains what it sends (R310). -/
theorem State.retained_transmit (s : State) (k : Nat) : (s.transmit k).retained = s.segment k := by
  have h := State.readBytes_writeBytes_self s .txSegbuf 0 (s.segment k)
  rw [length_segment] at h
  rw [← h]
  exact State.retained_congr (s := s.writeBytes .txSegbuf 0 (s.segment k)) rfl rfl

/-- TRANSMIT changes TX_SEGBUF only, of all memory (R310). -/
theorem State.readByte_transmit (s : State) (k : Nat) (sp : Space) (a : Nat) (h : sp ≠ .txSegbuf ∨ 576 ≤ a) :
    (s.transmit k).readByte sp a = s.readByte sp a := by
  have e : (s.transmit k).readByte sp a = (s.writeBytes .txSegbuf 0 (s.segment k)).readByte sp a :=
    State.readByte_congr rfl rfl a
  rw [e, State.readByte_writeBytes, if_neg]
  rintro ⟨rfl, -, ha⟩
  rw [length_segment] at ha
  rcases h with h | h
  · exact h rfl
  · omega

/-- The three outcomes of a TICK in SENDING (R320): wait on, give up, retransmit. -/
theorem onTick_cases (s : State) (h : s.tx.state = .sending) :
    (s.advanceNow.advanceElapsed.timedOut = false ∧ onTick s = s.advanceNow.advanceElapsed) ∨
    (s.advanceNow.advanceElapsed.timedOut = true ∧ s.retriesUsedUp = true ∧
      onTick s = s.advanceNow.advanceElapsed.raiseTx .giveUp) ∨
    (s.advanceNow.advanceElapsed.timedOut = true ∧ s.retriesUsedUp = false ∧
      onTick s = s.advanceNow.advanceElapsed.retransmit) := by
  have hr : s.advanceNow.advanceElapsed.retriesUsedUp = s.retriesUsedUp := rfl
  simp only [onTick, if_pos h, State.checkTimeout, hr]
  cases s.advanceNow.advanceElapsed.timedOut <;> cases s.retriesUsedUp <;> simp

theorem State.retriesUsedUp_iff (s : State) :
    s.retriesUsedUp = true ↔ s.cfg.maxRetry ≠ 0 ∧ s.cfg.maxRetry.toNat ≤ s.tx.retryCur.toNat := by
  simp [State.retriesUsedUp]

theorem State.timedOut_iff (s : State) : s.timedOut = true ↔ s.rtt.timeout.toNat ≤ s.tx.elapsed.toNat * 256 := by
  simp [State.timedOut]

theorem State.lastSegment_iff (s : State) : s.lastSegment = true ↔ s.tx.cur.toNat + 1 = s.tx.nseg.toNat := by
  simp [State.lastSegment, segFin]

/-- The outcomes of a token (R311 to R313): ignored, the last segment done, the next segment sent. -/
theorem onArx_cases (t : Word) (s : State) :
    ((s.tx.state ≠ .sending ∨ (s.cfg.ackCheck = true ∧ t ≠ s.tx.ack)) ∧ onArx t s = s) ∨
    (s.tx.state = .sending ∧ s.tx.cur.toNat + 1 = s.tx.nseg.toNat ∧ onArx t s = s.sampleAndLog.complete) ∨
    (s.tx.state = .sending ∧ s.tx.cur.toNat + 1 ≠ s.tx.nseg.toNat ∧
      onArx t s = s.sampleAndLog.transmit (s.tx.cur.toNat + 1)) := by
  by_cases hs : s.tx.state = .sending
  · by_cases ha : s.cfg.ackCheck = true ∧ t ≠ s.tx.ack
    · exact .inl ⟨.inr ha, by rw [onArx, if_neg (not_not.mpr hs), if_pos ha]⟩
    · refine .inr ?_
      rw [onArx, if_neg (not_not.mpr hs), if_neg ha, State.accept]
      by_cases hl : s.tx.cur.toNat + 1 = s.tx.nseg.toNat
      · exact .inl ⟨hs, hl, by rw [(State.lastSegment_iff s).mpr hl, cond_true]⟩
      · refine .inr ⟨hs, hl, ?_⟩
        rw [show s.lastSegment = false from Bool.eq_false_iff.mpr (fun h => hl ((State.lastSegment_iff s).mp h)), cond_false]
  · exact .inl ⟨.inl hs, by rw [onArx, if_pos hs]⟩

/-- The outcomes of TX_START (R300, R301): a command error, the two faults, a session. -/
theorem execTxStart_cases (s : State) :
    (s.tx.state ≠ .building ∧ execTxStart s = .next (s.cmdError .state)) ∨
    (s.tx.state = .building ∧ s.build.txMemSize < s.cfg.txLen.toNat ∧ execTxStart s = .next (s.clearStats.raiseTx .input)) ∨
    (s.tx.state = .building ∧ s.cfg.txLen.toNat ≤ s.build.txMemSize ∧ s.cfg.window ≠ 1 ∧
      execTxStart s = .next (s.clearStats.raiseTx .window)) ∨
    (s.tx.state = .building ∧ s.cfg.txLen.toNat ≤ s.build.txMemSize ∧ s.cfg.window = 1 ∧
      execTxStart s = .next s.clearStats.beginSession) := by
  by_cases h1 : s.tx.state = .building
  · by_cases h2 : s.build.txMemSize < s.cfg.txLen.toNat
    · exact .inr (.inl ⟨h1, h2, by rw [execTxStart, if_neg (not_not.mpr h1), if_pos h2]⟩)
    · by_cases h3 : s.cfg.window = 1
      · exact .inr (.inr (.inr ⟨h1, by omega, h3, by
          rw [execTxStart, if_neg (not_not.mpr h1), if_neg h2, if_neg (not_not.mpr h3)]⟩))
      · exact .inr (.inr (.inl ⟨h1, by omega, h3, by rw [execTxStart, if_neg (not_not.mpr h1), if_neg h2, if_pos h3]⟩))
  · exact .inl ⟨h1, by rw [execTxStart, if_pos h1]⟩

/-! ## Segmentation (R303) -/

theorem one_le_segCount (len : Nat) : 1 ≤ segCount len := by
  simp only [segCount]
  omega

/-- A segment that is not the last is full, and one that exists starts inside the stream. -/
theorem segSeq_lt_of_lt {len k : Nat} (h : k < segCount len) : segSeq k < len ∨ (k = 0 ∧ len = 0) := by
  simp only [segCount, ceilDiv, segSeq, Config.mss] at *
  omega

theorem segLen_of_lt {len k : Nat} (h : k + 1 < segCount len) : segLen len k = 556 := by
  simp only [segCount, ceilDiv, segLen, segSeq, Config.mss] at *
  omega

theorem segAck_of_lt {len k : Nat} (h : k < segCount len) : segAck len k = min (556 * k + 556) len := by
  simp only [segCount, ceilDiv, segAck, segLen, segSeq, Config.mss] at *
  omega

end Sys2Proof.Machine
end

