-- ==== Sys2Proof/Laws/Step.lean ====
section
/-! SUPPORT. Everything one step can do: the inversion lemmas that an invariant's proof goes through. -/

namespace Sys2Proof.Machine

open Sys2Proof.Safety

/-- A command word runs a command or is reported (R430). -/
theorem runCommand_cases (w : Word) (s : State) :
    (∃ i, decode w = .ok i ∧ runCommand w s = exec i s) ∨ runCommand w s = .next (s.cmdError .illegal) := by
  rw [runCommand]
  cases h : decode w with
  | ok i => exact .inl ⟨i, rfl, rfl⟩
  | error e => exact .inr rfl

/-- The outcomes of a host write: a bus error, a command, a register written, a window written (R105 to R108, R430). -/
theorem hostWrite_cases {s : State} (addr : HostAddr) (n : Nat) (v : Word) :
    hostWrite addr n v s = .next (s.respond .busError) ∨
    hostWrite addr n v s = runCommand v (s.respond .written) ∨
    (∃ r, hostWrite addr n v s = .next ((s.writeReg r v).respond .written)) ∨
    ∃ sp o, hostTarget s.build addr n = some (.window sp o) ∧
      hostWrite addr n v s = .next ((writeWindow sp o n v s).respond .written) := by
  rw [hostWrite]
  rcases h : hostTarget s.build addr n with _ | ⟨r⟩ | ⟨sp, o⟩
  · exact .inl rfl
  · by_cases hr : r = .cmd
    · subst hr
      exact .inr (.inl rfl)
    · refine .inr (.inr (.inl ⟨r, ?_⟩))
      cases r <;> first | rfl | exact absurd rfl hr
  · exact .inr (.inr (.inr ⟨sp, o, rfl, rfl⟩))

/-- A window target lies whole inside its memory (R60, R103). -/
theorem bound_of_hostTarget {b : Config.Build} {addr : HostAddr} {n : Nat} {sp : Space} {o : Nat}
    (h : hostTarget b addr n = some (.window sp o)) : o + n ≤ spaceSize b sp := by
  rw [hostTarget] at h
  split at h
  · split at h
    · obtain ⟨r, -, hr⟩ := Option.map_eq_some_iff.mp h
      cases hr
    · cases h
  · split at h
    · obtain ⟨w, hw, he⟩ := Option.map_eq_some_iff.mp h
      have hh := List.find?_some hw
      have hm := List.mem_of_find?_eq_some hw
      simp only [Window.holds, Bool.and_eq_true, Nat.ble_eq] at hh
      simp only [windows, List.mem_cons, List.not_mem_nil, or_false] at hm
      cases he
      rcases hm with rfl | rfl | rfl | rfl | rfl <;> simp only [spaceSize, Config.packetSize] at hh ⊢ <;> omega
    · cases h

/-- What storing in a register leaves alone. -/
theorem storeReg_frame (s : State) (r : Reg) (v : Word) :
    (s.storeReg r v).tx = s.tx ∧ (s.storeReg r v).rx = s.rx ∧ (s.storeReg r v).mem = s.mem ∧ (s.storeReg r v).now = s.now ∧
    (s.storeReg r v).dtx = s.dtx ∧ (s.storeReg r v).atx = s.atx ∧ (s.storeReg r v).log = s.log ∧
    (s.storeReg r v).resets = s.resets ∧ (s.storeReg r v).build = s.build ∧ (s.storeReg r v).rtt.timeout = s.rtt.timeout := by
  cases r <;> exact ⟨rfl, rfl, rfl, rfl, rfl, rfl, rfl, rfl, rfl, rfl⟩

/-- What a register write leaves alone; the configuration stands too while SENDING (R65). -/
theorem writeReg_frame (s : State) (r : Reg) (v : Word) :
    (s.writeReg r v).tx = s.tx ∧ (s.writeReg r v).rx = s.rx ∧ (s.writeReg r v).mem = s.mem ∧ (s.writeReg r v).now = s.now ∧
    (s.writeReg r v).dtx = s.dtx ∧ (s.writeReg r v).atx = s.atx ∧ (s.writeReg r v).log = s.log ∧
    (s.writeReg r v).resets = s.resets ∧ (s.writeReg r v).build = s.build ∧ (s.writeReg r v).rtt.timeout = s.rtt.timeout ∧
    (s.tx.state = .sending → (s.writeReg r v).cfg = s.cfg) := by
  have hs := storeReg_frame s r v
  rw [State.writeReg]
  cases h : r.access <;> simp only []
  case ro | wo => simp
  case w1c => simp
  case rw =>
    refine ⟨hs.1, hs.2.1, hs.2.2.1, hs.2.2.2.1, hs.2.2.2.2.1, hs.2.2.2.2.2.1, hs.2.2.2.2.2.2.1, hs.2.2.2.2.2.2.2.1,
      hs.2.2.2.2.2.2.2.2.1, hs.2.2.2.2.2.2.2.2.2, fun _ => ?_⟩
    cases r <;> first | rfl | cases h
  case rwl =>
    split
    · simp
    · rename_i hn
      exact ⟨hs.1, hs.2.1, hs.2.2.1, hs.2.2.2.1, hs.2.2.2.2.1, hs.2.2.2.2.2.1, hs.2.2.2.2.2.2.1, hs.2.2.2.2.2.2.2.1,
        hs.2.2.2.2.2.2.2.2.1, hs.2.2.2.2.2.2.2.2.2, fun h => absurd h hn⟩

/-- The outcomes of a write that reaches a window (R106, R108). -/
theorem writeWindow_cases (sp : Space) (o n : Nat) (v : Word) (s : State) :
    writeWindow sp o n v s = s ∨ writeWindow sp o n v s = s.setStatus .wrIgn ∨
    (sp = .ckBuf ∨ sp = .txMem ∧ s.tx.state ≠ .sending) ∧ writeWindow sp o n v s = s.writeBytes sp o (hostBytes n v) := by
  cases sp
  case ckBuf => exact .inr (.inr ⟨.inl rfl, rfl⟩)
  case txMem =>
    by_cases h : s.tx.state = .sending
    · exact .inr (.inl (by rw [writeWindow, if_pos h]))
    · exact .inr (.inr ⟨.inr ⟨rfl, h⟩, by rw [writeWindow, if_neg h]⟩)
  all_goals exact .inl rfl

/-- What a host read can change: the answer and the three latches (R109). -/
theorem hostRead_frame (addr : HostAddr) (n : Nat) (s : State) : ∃ r a b c, hostRead addr n s =
    { s with hostResp := r, nowHiL := a, sendTimeHiL := b, xferTimeHiL := c } := by
  rw [hostRead]
  rcases hostTarget s.build addr n with _ | ⟨r⟩ | ⟨sp, o⟩
  · exact ⟨_, _, _, _, rfl⟩
  · cases r <;> exact ⟨_, _, _, _, rfl⟩
  · exact ⟨_, _, _, _, rfl⟩

end Sys2Proof.Machine
end

