-- ==== Sys2Proof/Laws/Environment.lean ====
section
/-! SUPPORT. What a step takes, that no event looks at what the environment has still to present, and that the executions of
Machine/Environment.lean are the runs of the core. -/

namespace Sys2Proof.Machine

/-- A step with an event placed in inputs (R9). -/
theorem step_cons {s : State} {e : Event} {rest : List Event} (h : s.inputs = e :: rest) :
    step s = runEvent e { s with inputs := rest } := by
  simp [step, takeEvent, State.nextEvent, State.afterTurn, h]

/-- A step with inputs used up takes what the environment draws (log entry 23). -/
theorem step_nil {s : State} (h : s.inputs = []) :
    step s = match Config.environment s.turn with
      | some e => runEvent e { s with turn := s.turn + 1 }
      | none => .next { s with turn := s.turn + 1 } := by
  have hn : s.nextEvent = Config.environment s.turn := by rw [State.nextEvent, h]
  have ha : s.afterTurn = { s with turn := s.turn + 1 } := by simp only [State.afterTurn, h]
  cases hd : Config.environment s.turn <;> simp only [step, takeEvent, hn, ha, hd]

/-- The two outcomes of a step: nothing is presented, or an event is taken, on a state that differs in inputs and turn only. -/
theorem step_cases (s : State) : ∃ l k, s.afterTurn = { s with inputs := l, turn := k } ∧
    ((s.nextEvent = none ∧ step s = .next { s with inputs := l, turn := k }) ∨
      ∃ e, s.nextEvent = some e ∧ step s = runEvent e { s with inputs := l, turn := k }) := by
  have ha : ∃ l k, s.afterTurn = { s with inputs := l, turn := k } := by
    rw [State.afterTurn]
    split <;> exact ⟨_, _, rfl⟩
  obtain ⟨l, k, ha⟩ := ha
  refine ⟨l, k, ha, ?_⟩
  rw [step, takeEvent, ha]
  cases s.nextEvent with
  | none => exact .inl ⟨rfl, rfl⟩
  | some e => exact .inr ⟨e, rfl, rfl⟩

/-- No command looks at what the environment has still to present. -/
theorem exec_environment (i : Instr) (s : State) (l : List Event) (k : Nat) : ∃ t, exec i s = .next t ∧
    exec i { s with inputs := l, turn := k } = .next { t with inputs := l, turn := k } := by
  cases i <;> simp only [exec]
  case nop | ckCompute => exact ⟨_, rfl, rfl⟩
  case txStart => rw [execTxStart, execTxStart]; split_ifs <;> exact ⟨_, rfl, rfl⟩
  case txClear => rw [execTxClear, execTxClear]; split_ifs <;> exact ⟨_, rfl, rfl⟩
  case rxStart => rw [execRxStart, execRxStart]; split_ifs <;> exact ⟨_, rfl, rfl⟩
  case rxClear => rw [execRxClear, execRxClear]; split_ifs <;> exact ⟨_, rfl, rfl⟩
  case ckVerify => rw [execCkVerify, execCkVerify]; split_ifs <;> exact ⟨_, rfl, rfl⟩
  case segDecode => rw [execSegDecode, execSegDecode]; split_ifs <;> exact ⟨_, rfl, rfl⟩
  case segEncode =>
    rw [execSegEncode, execSegEncode]
    have h : State.encodeLength { s with inputs := l, turn := k } = s.encodeLength := rfl
    rw [h]
    split_ifs <;> exact ⟨_, rfl, rfl⟩
  case rttInit => rw [execRttInit, execRttInit]; split_ifs <;> exact ⟨_, rfl, rfl⟩
  case rttSample => rw [execRttSample, execRttSample]; split_ifs <;> exact ⟨_, rfl, rfl⟩

/-- No event looks at what the environment has still to present, and none stops the block (R460). -/
theorem runEvent_environment (e : Event) (s : State) (l : List Event) (k : Nat) : ∃ t, runEvent e s = .next t ∧
    runEvent e { s with inputs := l, turn := k } = .next { t with inputs := l, turn := k } := by
  cases e with
  | host a =>
    cases a with
    | read addr n =>
      refine ⟨_, rfl, ?_⟩
      simp only [runEvent, hostRead]
      rcases hostTarget s.build addr n with _ | ⟨r⟩ | ⟨sp, o⟩
      · rfl
      · cases r <;> rfl
      · rfl
    | write addr n v =>
      simp only [runEvent, hostWrite]
      rcases hostTarget s.build addr n with _ | ⟨r⟩ | ⟨sp, o⟩
      · exact ⟨_, rfl, rfl⟩
      · by_cases hr : r = .cmd
        · subst hr
          simp only [runCommand]
          cases decode v with
          | ok i => exact exec_environment i (s.respond .written) l k
          | error x => exact ⟨_, rfl, rfl⟩
        · exact ⟨(s.writeReg r v).respond .written, by cases r <;> first | rfl | exact absurd rfl hr, by
            cases r <;> first | (simp only [State.writeReg, Reg.access]; split_ifs <;> rfl) | rfl | exact absurd rfl hr⟩
      · refine ⟨_, rfl, ?_⟩
        cases sp <;> simp only [writeWindow] <;> first | rfl | (split_ifs <;> rfl)
  | tick =>
    refine ⟨_, rfl, ?_⟩
    by_cases h : s.tx.state = .sending
    · have ha : State.advanceElapsed (State.advanceNow { s with inputs := l, turn := k }) =
          { s.advanceNow.advanceElapsed with inputs := l, turn := k } := rfl
      simp only [runEvent, onTick, h, if_true, ha, State.checkTimeout]
      generalize s.advanceNow.advanceElapsed = u
      have ht : State.timedOut { u with inputs := l, turn := k } = u.timedOut := rfl
      have hu : State.retriesUsedUp { u with inputs := l, turn := k } = u.retriesUsedUp := rfl
      rw [ht, hu]
      cases u.timedOut <;> cases u.retriesUsedUp <;> rfl
    · simp only [runEvent, onTick, h, if_false]
      rfl
  | drx d =>
    refine ⟨_, rfl, ?_⟩
    have hw : State.writeBytes { s with inputs := l, turn := k } .rxSegbuf 0 d =
        { s.writeBytes .rxSegbuf 0 d with inputs := l, turn := k } := rfl
    simp only [runEvent, onDrx, State.checkAndDeliver, hw]
    generalize s.writeBytes .rxSegbuf 0 d = u
    cases (decodeSeg d).fin <;> split_ifs <;> rfl
  | arx t =>
    refine ⟨_, rfl, ?_⟩
    simp only [runEvent, onArx, State.accept]
    have hl : State.lastSegment { s with inputs := l, turn := k } = s.lastSegment := rfl
    rw [hl]
    cases s.lastSegment <;> split_ifs <;> rfl
  | rst => exact ⟨_, rfl, rfl⟩

/-- No event stops the block (R460). -/
theorem runEvent_next (e : Event) (s : State) : ∃ t, runEvent e s = .next t := by
  obtain ⟨t, h, -⟩ := runEvent_environment e s [] 0
  exact ⟨t, h⟩

/-! ## Executions -/

/-- Taking an event is its step (R9). -/
theorem State.take_some (s : State) (e : Event) : runEvent e s = .next (s.take (some e)) := by
  obtain ⟨t, h⟩ := runEvent_next e s
  simp only [State.take, h]

/-- What is presented does not depend on what is still to be presented. -/
theorem State.take_environment (s : State) (p : Option Event) (l : List Event) (k : Nat) :
    State.take { s with inputs := l, turn := k } p = { s.take p with inputs := l, turn := k } := by
  cases p with
  | none => rfl
  | some e =>
    obtain ⟨t, h, h'⟩ := runEvent_environment e s l k
    simp only [State.take, h, h']

theorem execution_environment (ev : Schedule) (s : State) (l : List Event) (k n : Nat) :
    execution ev { s with inputs := l, turn := k } n = { execution ev s n with inputs := l, turn := k } := by
  induction n with
  | zero => rfl
  | succ n ih => rw [execution, ih, State.take_environment, execution]

theorem presentedBefore_succ (ev : Schedule) (n : Nat) :
    presentedBefore ev (n + 1) = presentedBefore ev n ++ (ev n).toList := by
  simp only [presentedBefore, List.range_succ, List.filterMap_append]
  cases h : ev n <;> simp [h]

/-- What arrives on ARX at time n is the token of the event presented then, if it has one (R311). -/
theorem tokensReceived_succ (ev : Schedule) (n : Nat) :
    tokensReceived ev (n + 1) = tokensReceived ev n ++ (ev n).toList.filterMap Event.token := by
  rw [tokensReceived, presentedBefore_succ, List.filterMap_append, tokensReceived]

/-- The tokens received by a time are received by every later time, in the same places. -/
theorem tokensReceived_prefix (ev : Schedule) {m n : Nat} (h : m ≤ n) : tokensReceived ev m <+: tokensReceived ev n := by
  induction h with
  | refl => exact List.prefix_rfl
  | step _ ih =>
    rw [tokensReceived_succ]
    exact ih.trans (List.prefix_append _ _)

/-- At most one token arrives at a time. -/
theorem length_tokensReceived_succ (ev : Schedule) (n : Nat) :
    (tokensReceived ev (n + 1)).length ≤ (tokensReceived ev n).length + 1 := by
  rw [tokensReceived_succ, List.length_append]
  have h := List.length_filterMap_le Event.token (ev n).toList
  have h1 : (ev n).toList.length ≤ 1 := by cases ev n <;> simp
  omega

/-- What one side sends and the other receives over the channel, lossy or not: no more than was sent (R482). -/
theorem ackChannel_length_le {ev peerEv : Schedule} {s peer : State} (h : AckChannel ev s peerEv peer) (n : Nat) :
    (tokensReceived ev (n + 1)).length ≤ (tokensSent peerEv peer n).length := by
  rw [AckChannel] at h
  split at h
  · exact (h n).length_le
  · exact (h.1 n).length_le

/-- The last step of a run. -/
theorem run_succ (M : Host.Core) (n : Nat) (s : M.State) :
    M.run (n + 1) s = match M.run n s with
      | .next t => M.step t
      | .fault r => .fault r
      | .refused r => .refused r := by
  induction n generalizing s with
  | zero =>
    simp only [Host.Core.run]
    cases M.step s <;> rfl
  | succ n ih =>
    have first (m : Nat) (u : M.State) : M.run (m + 1) u = match M.step u with
      | .next t => M.run m t
      | .fault r => .fault r
      | .refused r => .refused r := rfl
    rw [first (n + 1), first n]
    cases M.step s with
    | next t => exact ih t
    | fault r => rfl
    | refused r => rfl

/-- The run of the core over the events an execution presents before time n reaches the execution's state at time n, whatever is
presented after them: every finite part of every execution is a run of the core. -/
theorem run_presentedBefore (ev : Schedule) (s : State) (n : Nat) (rest : List Event) :
    Host.Core.run core (presentedBefore ev n).length { s with inputs := presentedBefore ev n ++ rest } =
      .next { execution ev s n with inputs := rest, turn := s.turn } := by
  induction n generalizing rest with
  | zero => rfl
  | succ n ih =>
    rw [presentedBefore_succ]
    cases h : ev n with
    | none => simpa [h, execution, State.take] using ih rest
    | some e =>
      simp only [Option.toList_some, List.length_append, List.length_singleton, List.append_assoc, List.singleton_append]
      refine (run_succ core _ _).trans ?_
      rw [ih (e :: rest)]
      refine (step_cons (s := { execution ev s n with inputs := e :: rest, turn := s.turn }) rfl).trans ?_
      have ht := State.take_some { execution ev s n with inputs := rest, turn := s.turn } e
      rw [State.take_environment] at ht
      rw [execution, h]
      exact ht

/-- Once inputs are used up, the run of the core is the execution under the events the environment draws: it goes on for ever, under a
schedule that nothing constrains (R10, R487). -/
theorem run_environment (s : State) (h : s.inputs = []) (n : Nat) :
    Host.Core.run core n s =
      .next { execution (fun k => Config.environment (s.turn + k)) s n with inputs := [], turn := s.turn + n } := by
  induction n with
  | zero =>
    cases s
    cases h
    rfl
  | succ n ih =>
    refine (run_succ core _ _).trans ?_
    rw [ih]
    refine (step_nil rfl).trans ?_
    simp only [execution]
    have ht (p : Option Event) := State.take_environment (execution (fun k => Config.environment (s.turn + k)) s n) p []
      (s.turn + n + 1)
    cases he : Config.environment (s.turn + n) with
    | none => rfl
    | some e =>
      have := State.take_some
        { execution (fun k => Config.environment (s.turn + k)) s n with inputs := [], turn := s.turn + n + 1 } e
      rw [ht] at this
      exact this

end Sys2Proof.Machine
end

