-- ==== Sys2Proof/Laws/PerInstr.lean ====
section
/-! SUPPORT. Statements made once per command. -/

namespace Sys2Proof.Laws.EncodesInOneByte

/-- R165: the word of a command has its OPCODE in W[7:0] and zeros in W[31:8]. -/
def Statement (i : Instr) : Prop := i.wf = true → (encode i).extractLsb' 8 24 = 0 ∧ (opcodeOf (encode i), i) ∈ opcodeTable

theorem nop : Statement .nop := fun _ => by decide

theorem txStart : Statement .txStart := fun _ => by decide

theorem txClear : Statement .txClear := fun _ => by decide

theorem rxStart : Statement .rxStart := fun _ => by decide

theorem rxClear : Statement .rxClear := fun _ => by decide

theorem ckCompute : Statement .ckCompute := fun _ => by decide

theorem ckVerify : Statement .ckVerify := fun _ => by decide

theorem segDecode : Statement .segDecode := fun _ => by decide

theorem segEncode : Statement .segEncode := fun _ => by decide

theorem rttInit : Statement .rttInit := fun _ => by decide

theorem rttSample : Statement .rttSample := fun _ => by decide

end Sys2Proof.Laws.EncodesInOneByte
end

