-- ==== Sys2Proof/Tests/Slice0.lean ====
section
/-! SUPPORT. Tests of the model: words and values written out from the spec (the vectors of 95_test_vectors.md are named in each
docstring), and a witness for the hypotheses of every statement. -/

namespace Sys2Proof.Tests

open Sys2Proof.Machine Sys2Proof.Safety

/-! ## Helpers -/

/-- The next state of an outcome, if it is one. -/
def nextOf (o : Host.Outcome State Fault Refusal) : Option State :=
  match o with
  | .next t => some t
  | .fault _ => none
  | .refused _ => none

/-- What a field reads after a command. -/
def afterExec {α : Type} (i : Instr) (s : State) (f : State → α) : Option α := (nextOf (exec i s)).map f

/-- What a field reads after an event. -/
def afterEvent {α : Type} (e : Event) (s : State) (f : State → α) : Option α := (nextOf (runEvent e s)).map f

/-- The reset state with the given events presented. -/
def presented (es : List Event) : State := { State.reset with inputs := es }

/-- The reset state with CK_BUF holding these bytes. -/
def withBuffer (d : Datagram) : State := { State.reset with mem := { Mems.reset with ckBuf := Memory.cells 0 d } }

/-- The reset state with the sender in a state of its machine. -/
def txIn (x : TxState) : State := { State.reset with tx := { TxUnit.reset with state := x } }

/-- The reset state with the receiver in a state of its machine. -/
def rxIn (x : RxState) : State := { State.reset with rx := { RxUnit.reset with state := x } }

/-- The reset state with the sender failed for a cause. -/
def failedWith (c : TxCause) : State := { State.reset with tx := { TxUnit.reset with state := .failed, cause := c } }

/-- A datagram with these first bytes and zeros after them. -/
def datagram (bytes : List Byte) : Datagram := bytes ++ List.replicate (576 - bytes.length) 0

/-- V-CK-3, the HELLO segment. -/
def hello : Datagram :=
  datagram (([0x12, 0x34, 0x56, 0x78, 0x00, 0x00, 0x00, 0x00, 0x00, 0x00, 0x00, 0x05] : List Byte) ++
    ([0x00, 0x14, 0x01, 0x01, 0x58, 0x4D, 0x00, 0x00, 0x48, 0x45, 0x4C, 0x4C, 0x4F] : List Byte))

/-- V-CK-17, a valid checksum over a header whose payload length wraps. -/
def wrapped : Datagram :=
  datagram ([0x04, 0x00, 0x04, 0x01, 0x00, 0x00, 0x00, 0x0A, 0x00, 0x00, 0x00, 0x05, 0x00, 0x14, 0x00, 0x01, 0x25, 0x08] : List Byte)

/-- V-CK-15, the empty FIN segment. -/
def emptyFin : Datagram :=
  datagram ([0x00, 0x00, 0x00, 0x00, 0x00, 0x00, 0x00, 0x00, 0x00, 0x00, 0x00, 0x00, 0x00, 0x14, 0x01, 0x01, 0x15, 0x01] : List Byte)

/-- V-CK-15, seg(0x0400, 0x0401, 0, 4, 0, "ABCD"). -/
def abcd : Datagram :=
  datagram (([0x04, 0x00, 0x04, 0x01, 0x00, 0x00, 0x00, 0x00, 0x00, 0x00, 0x00, 0x04] : List Byte) ++
    ([0x00, 0x14, 0x00, 0x01, 0xA0, 0x8C, 0x00, 0x00, 0x41, 0x42, 0x43, 0x44] : List Byte))

/-! ## Decoding: the words of R166 and words outside it -/

theorem test_decode_nop : decode 0x00000000#32 = .ok .nop := by decide

theorem test_decode_txStart : decode 0x00000001#32 = .ok .txStart := by decide

theorem test_decode_txClear : decode 0x00000002#32 = .ok .txClear := by decide

theorem test_decode_rxStart : decode 0x00000003#32 = .ok .rxStart := by decide

theorem test_decode_rxClear : decode 0x00000004#32 = .ok .rxClear := by decide

theorem test_decode_ckCompute : decode 0x00000010#32 = .ok .ckCompute := by decide

theorem test_decode_ckVerify : decode 0x00000011#32 = .ok .ckVerify := by decide

theorem test_decode_segDecode : decode 0x00000012#32 = .ok .segDecode := by decide

theorem test_decode_segEncode : decode 0x00000013#32 = .ok .segEncode := by decide

theorem test_decode_rttInit : decode 0x00000020#32 = .ok .rttInit := by decide

theorem test_decode_rttSample : decode 0x00000021#32 = .ok .rttSample := by decide

/-- V-C-1: an upper bit set. -/
theorem test_decode_upper : decode 0x00000101#32 = .error .upperBitsSet := by decide

/-- V-C-2 and V-C-3, and the codes next to the map's. -/
theorem test_decode_unknown :
    decode 0x00000005#32 = .error .unknownOpcode ∧ decode 0x000000FF#32 = .error .unknownOpcode ∧
    decode 0x0000000F#32 = .error .unknownOpcode ∧ decode 0x00000014#32 = .error .unknownOpcode ∧
    decode 0x00000022#32 = .error .unknownOpcode := by decide

theorem test_decodeTableWord : decodeTableWord 32 0x13 = some .segEncode ∧ decodeTableWord 32 0x113 = none := by decide

/-! ## Well-formedness: each check refuses an ill-formed term -/

theorem test_build_wf :
    Config.Build.wf { txMemSize := 1, rxMemSize := 65536 } = true ∧ Config.Build.wf { txMemSize := 0, rxMemSize := 1 } = false ∧
    Config.Build.wf { txMemSize := 65537, rxMemSize := 1 } = false ∧ Config.Build.wf { txMemSize := 1, rxMemSize := 0 } = false ∧
    Config.Build.wf { txMemSize := 1, rxMemSize := 65537 } = false := by decide

theorem test_access_wf :
    HostAccess.wf (.read 0 2) = true ∧ HostAccess.wf (.read 0 3) = false ∧ HostAccess.wf (.write 0 8 0) = false ∧
    HostAccess.wf (.write 0 0 0) = false := by decide

theorem test_event_wf : Event.wf (.host (.read 0 3)) = false ∧ Event.wf (.arx 5) = true := by decide

/-- A datagram of 65536 bytes is ill-formed (R119). -/
theorem test_datagram_wf : Event.wf (.drx (List.replicate 65536 0)) = false := by
  rw [Event.wf, List.length_replicate]
  decide

/-- Every command is well formed: it has no operand (R168). -/
theorem test_instr_wf : Instr.wf .nop = true ∧ Instr.wf .rttSample = true := by decide

/-! ## Codec (V-CK) -/

/-- V-CK-3. -/
theorem test_ckCompute_hello :
    afterExec .ckCompute (withBuffer hello) (fun t => (t.ck.result, t.ck.verifyOk)) = some (0x584D, false) := by decide +kernel

/-- V-CK-18: CK_COMPUTE ignores CK_LEN. -/
theorem test_ckCompute_len :
    afterExec .ckCompute { withBuffer hello with ck := { CkUnit.reset with len := 100 } } (fun t => ckStatusWord t) = some 0 := by
  decide +kernel

/-- V-CK-1, V-CK-2, V-CK-4 to V-CK-10. -/
theorem test_cksum_table :
    cksum (List.replicate 576 0) = 0x0000 ∧ cksum (List.replicate 576 0xFF) = 0xFFFF ∧
    cksum (datagram (List.replicate 20 0 ++ [0xFF, 0xFF])) = 0xFFFF ∧
    cksum (datagram (List.replicate 20 0 ++ [0xFF, 0xFF, 0x01])) = 0x0001 ∧
    cksum (datagram (List.replicate 20 0 ++ [0x00, 0x80, 0x00, 0x80])) = 0x0001 ∧
    cksum (datagram (List.replicate 20 0 ++ [0xFF, 0xFF, 0xFF, 0xFF])) = 0xFFFF ∧
    cksum (datagram (List.replicate 20 0 ++ [0x02, 0x01])) = 0x0102 ∧
    cksum (datagram (List.replicate 16 0 ++ [0xAB, 0xCD])) = 0x0000 ∧
    cksum (datagram (List.replicate 18 0 ++ [0x01])) = 0x0001 := by decide +kernel

/-- V-CK-3 and V-CK-15: what BUILD makes. -/
theorem test_buildSeg :
    buildSeg 0x1234 0x5678 0 5 true [0x48, 0x45, 0x4C, 0x4C, 0x4F] 0 = hello ∧ buildSeg 0 0 0 0 true [] 0 = emptyFin := by
  decide +kernel

/-- V-CK-11: the filler byte is summed. -/
theorem test_buildSeg_pad : be16 (buildSeg 0x1234 0x5678 0 5 true [0x48, 0x45, 0x4C, 0x4C, 0x4F] 0x20) 16 = 0xFACF := by
  decide +kernel

/-- V-CK-12 to V-CK-14: one changed byte is caught; two exchanged words and 0x0000 turned 0xFFFF are not. -/
theorem test_verify_changes :
    verify hello = true ∧ verify (hello.set 20 0x49) = false ∧
    verify ((((hello.set 20 0x4C).set 21 0x4C).set 22 0x48).set 23 0x45) = true ∧
    verify ((hello.set 30 0xFF).set 31 0xFF) = true := by decide +kernel

/-- V-CK-16: CK_VERIFY on the HELLO segment, and on it with one byte changed (V-CK-12). -/
theorem test_ckVerify :
    afterExec .ckVerify (withBuffer hello) (fun t => (ckStatusWord t, t.ck.result)) = some (0x1, 0x584D) ∧
    afterExec .ckVerify (withBuffer (hello.set 20 0x49)) (fun t => (ckStatusWord t, t.ck.result)) = some (0x0, 0x584E) := by
  decide +kernel

/-- V-CK-18: a wrong CK_LEN is malformed and leaves CK_RESULT. -/
theorem test_ckVerify_len :
    afterExec .ckVerify { State.reset with ck := { CkUnit.reset with len := 100, verifyOk := true, result := 7 } }
      (fun t => (ckStatusWord t, t.ck.result)) = some (0x2, 7) := by decide

/-- V-CK-17: SEG_DECODE of a wrapped length. -/
theorem test_segDecode_wrapped :
    afterExec .segDecode (withBuffer wrapped) (fun t => (t.ck.segSeq, t.ck.segAck, t.ck.segLen, ckStatusWord t, t.ck.segCksum)) =
      some (0x0A, 0x05, 0xFFFFFFFB, 0x4, 0x2508) := by decide +kernel

/-- V-CK-16: SEG_DECODE of the HELLO segment. -/
theorem test_segDecode_hello :
    afterExec .segDecode (withBuffer hello) (fun t => (t.ck.segPorts, t.ck.segFlags, t.ck.segLen)) =
      some (0x56781234, 0x00140101, 5) := by decide +kernel

/-- V-CK-16, the state before SEG_ENCODE. -/
def beforeEncode : State :=
  { State.reset with
    mem := { Mems.reset with ckBuf := [(20, 0x48), (21, 0x45), (22, 0x4C), (23, 0x4C), (24, 0x4F)] }
    ck := { CkUnit.reset with segPorts := 0x56781234, segAck := 5, segFlags := 1, len := 0 } }

/-- V-CK-16: SEG_ENCODE builds V-CK-3. -/
theorem test_segEncode :
    afterExec .segEncode beforeEncode (fun t => (t.mem.ckBuf, t.ck.len, t.ck.result, t.ck.segCksum, t.ck.segLen)) =
      some (Memory.cells 0 hello, 0x240, 0x584D, 0x584D, 5) := by decide +kernel

/-- V-CK-19: length errors, and 556 which is legal. -/
theorem test_segEncode_length :
    afterExec .segEncode { State.reset with ck := { CkUnit.reset with segSeq := 10, segAck := 5 } }
      (fun t => (statusWord t, errCauseWord t, t.ck.len)) = some (0x40, 3, 576) ∧
    afterExec .segEncode { State.reset with ck := { CkUnit.reset with segAck := 557 } } (fun t => errCauseWord t) = some 3 ∧
    afterExec .segEncode { State.reset with ck := { CkUnit.reset with segAck := 556 } } (fun t => errCauseWord t) = some 0 := by
  decide +kernel

/-! ## RTT estimator (V-RTT) -/

/-- V-RTT-4's start, with a sample of n. -/
def rttStart (n : Word) (override first : Bool) (est dev : Word) : State :=
  { State.reset with
    cfg := { SessionConfig.reset with firstOvr := override, initRtt := 0xA00, initTo := 0x1400 }
    rtt := { RttUnit.reset with est := est, dev := dev, first := first, sampleIn := n } }

/-- What an estimator update leaves. -/
def rttOf (s : State) : Word × Word × Word := (s.rtt.est, s.rtt.dev, s.rtt.timeout)

/-- The estimator's start of §2.2. -/
theorem test_rttInit :
    afterExec .rttInit (rttStart 6 true false 1 2) (fun t => (rttOf t, t.rtt.first)) = some ((0xA00, 0, 0x1400), true) := by decide

/-- V-RTT-7. -/
theorem test_rttInit_sending :
    afterExec .rttInit (txIn .sending) (fun t => (errCauseWord t, statusWord t, rttOf t)) = some (2, 0x40, (0, 0, 0)) := by decide

/-- V-RTT-4 and V-RTT-5: override, blend, and the order of the update. -/
theorem test_rttSample :
    afterExec .rttSample (rttStart 6 true true 0xA00 0) (fun t => (rttOf t, t.rtt.first, t.rtt.lastSample)) =
      some ((0x600, 0x100, 0xA00), false, 6) ∧
    afterExec .rttSample (rttStart 6 false true 0xA00 0) rttOf = some (0x980, 0x100, 0xD80) ∧
    afterExec .rttSample (rttStart 0 false false 0x600 0x100) rttOf = some (0x540, 0x240, 0xE40) := by decide

/-- V-RTT-6: saturation, and no wrap. -/
theorem test_rttSample_saturates :
    afterExec .rttSample (rttStart 0xFFFFFFFF true true 0xA00 0) rttOf = some (0xFFFFFF00, 0x3FFFFD40, 0xFFFFFFFF) ∧
    afterExec .rttSample (rttStart 0xFFFFFFFF false false 0xFFFFFF00 0xFFFFFFFF) rttOf =
      some (0xFFFFFF00, 0xBFFFFFFF, 0xFFFFFFFF) ∧
    afterExec .rttSample (rttStart 0xFFFFFFFF false false 0 0) rttOf = some (0x1FFFFFE0, 0x3FFFFFC0, 0xFFFFFFFF) := by decide

/-! ## Sender (V-TX) -/

/-- A session of n bytes of input before its start. -/
def session (n : Word) : State :=
  { State.reset with
    cfg := { SessionConfig.reset with txLen := n, ports := 0x04010400, initRtt := 0xA00, initTo := 0x1400 }
    mem := { Mems.reset with txMem := [(0, 0x41), (1, 0x42), (2, 0x43), (3, 0x44)] } }

/-- V-TX-1. -/
theorem test_txStart_window :
    afterExec .txStart { State.reset with cfg := { SessionConfig.reset with window := 2 } }
      (fun t => (txStatWord t, statusWord t, t.dtx, t.tx.segSent)) = some (0x123, 0x02, [], 0) := by decide

/-- V-TX-3: the empty input sends the empty FIN. -/
theorem test_txStart_empty :
    afterExec .txStart State.reset (fun t => (t.dtx, t.tx.nseg, t.tx.ack, t.tx.segSent, t.tx.state)) =
      some ([emptyFin], 1, 0, 1, .sending) := by decide +kernel

/-- V-TX-2. -/
theorem test_txStart_input :
    afterExec .txStart { State.reset with
      cfg := { SessionConfig.reset with window := 2, txLen := 1001 }, build := { txMemSize := 1000, rxMemSize := 1000 } }
      (fun t => (txStatWord t, t.dtx)) = some (0x113, []) := by decide

/-- V-TX-4. -/
theorem test_segCount :
    [0, 1, 556, 557, 1112, 1678, 65536].map (fun n => (segCount n, segSeq (segCount n - 1), segAck n (segCount n - 1))) =
      [(1, 0, 0), (1, 0, 1), (1, 0, 556), (2, 556, 557), (2, 556, 1112), (4, 1668, 1678), (118, 65052, 65536)] := by decide

/-- V-TX-5. -/
theorem test_timeoutTick :
    [0x0#32, 0x1#32, 0x100#32, 0x101#32, 0x1400#32, 0x1401#32, 0xFFFFFFFF#32].map timeoutTick =
      [1, 1, 1, 2, 20, 21, 16777216] := by decide

/-- V-TX-9. -/
theorem test_txClear :
    afterExec .txClear (txIn .sending) (fun t => errCauseWord t) = some 2 ∧
    afterExec .txClear { State.reset with tx := { TxUnit.reset with state := .failed, cause := .window } } (fun t => txStatWord t) =
      some 0x100 := by decide

/-- A sender waiting for the acknowledgment of its last segment, of 10 bytes, at tick 20 (program P2 before its last TICKs). -/
def waiting : State :=
  { State.reset with
    now := 26
    cfg := { SessionConfig.reset with txLen := 10 }
    rtt := { RttUnit.reset with est := 0xA00, timeout := 0x1400 }
    tx := { TxUnit.reset with state := .sending, nseg := 1, ack := 10, segSent := 1, bytesSent := 10, sendTime := 20, elapsed := 6 } }

/-- P2: the accepted token. -/
theorem test_onArx_final :
    afterEvent (.arx 10) waiting (fun t => (txStatWord t, statusWord t, rttOf t, t.tx.xferTime)) =
      some (0x2, 0x01, (0x600, 0x100, 0xA00), 26) ∧
    afterEvent (.arx 10) waiting State.log =
      some [{ kind := 1, timestamp := 20, seq := 0, ack := 10, fin := 1, aux := 0x600 }] := by decide

/-- V-TX-7: with ACK_CHECK a wrong token is ignored, without it any token is accepted. -/
theorem test_onArx_check :
    afterEvent (.arx 555) { waiting with cfg := { waiting.cfg with ackCheck := true } } (fun t => t.tx.state) = some .sending ∧
    afterEvent (.arx 0xDEADBEEF) waiting (fun t => t.tx.state) = some .done := by decide

/-- P2: the tick before the timeout waits, the tick at the timeout retransmits. -/
theorem test_onTick_timeout :
    afterEvent .tick { waiting with tx := { waiting.tx with elapsed := 18 } } (fun t => (t.tx.elapsed, t.dtx.length, statusWord t)) =
      some (19, 0, 0) ∧
    afterEvent .tick { waiting with tx := { waiting.tx with elapsed := 19 } }
      (fun t => (t.tx.elapsed, t.dtx.length, statusWord t, t.tx.retxCnt, t.tx.retryCur, t.tx.sendTime)) =
      some (0, 1, 0x20, 1, 1, 27) := by decide +kernel

/-- P6: the give-up. -/
theorem test_onTick_giveUp :
    afterEvent .tick { waiting with
      cfg := { waiting.cfg with maxRetry := 2 }, tx := { waiting.tx with elapsed := 19, retryCur := 2 } }
      (fun t => (txStatWord t, statusWord t, t.tx.elapsed, t.dtx)) = some (0x133, 0x02, 20, []) := by decide

/-! ## Receiver (V-RX) -/

theorem test_rxStart :
    afterExec .rxStart State.reset (fun t => rxStatWord t) = some 0x1 ∧
    afterExec .rxStart (rxIn .receiving) (fun t => (rxStatWord t, errCauseWord t)) = some (0x1, 2) := by decide

/-- V-C-7, and the way out of OVERFLOW (R371). -/
theorem test_rxClear :
    afterExec .rxClear (rxIn .receiving) (fun t => (rxStatWord t, errCauseWord t)) = some (0x1, 2) ∧
    afterExec .rxClear { State.reset with rx := { RxUnit.reset with state := .failed, cause := .overflow } }
      (fun t => rxStatWord t) = some 0x0 := by decide

/-- V-RX-1, V-RX-2. -/
theorem test_onDrx_length :
    afterEvent (.drx []) (rxIn .receiving) (fun t => (t.rx.dropMalf, statusWord t, t.atx)) = some (1, 0x10, []) ∧
    afterEvent (.drx (List.replicate 575 0)) (rxIn .receiving) State.mem = some Mems.reset := by
  decide +kernel

/-- V-RX-3 and V-RX-4. -/
theorem test_onDrx_drops :
    afterEvent (.drx (hello.set 20 0x49)) (rxIn .receiving) (fun t => (t.rx.dropCksum, t.rx.dropMalf, statusWord t, t.atx)) =
      some (1, 0, 0x10, []) ∧
    afterEvent (.drx wrapped) (rxIn .receiving) (fun t => (t.rx.dropCksum, t.rx.dropMalf, t.atx)) = some (0, 1, []) := by
  decide +kernel

/-- V-RX-5. -/
theorem test_onDrx_hello :
    afterEvent (.drx hello) (rxIn .receiving) (fun t => (t.rx.bytes, t.rx.segs, t.atx, rxStatWord t, statusWord t)) =
      some (5, 1, [5], 0x2, 0x04) ∧
    afterEvent (.drx hello) (rxIn .receiving) (fun t => t.mem.rxMem) = some (Memory.cells 0 [0x48, 0x45, 0x4C, 0x4C, 0x4F]) ∧
    afterEvent (.drx hello) (rxIn .receiving) State.log =
      some [{ kind := 2, timestamp := 0, seq := 0, ack := 5, fin := 1, aux := 0x56781234 }] := by decide +kernel

/-- V-RX-9, the overflow: 5 bytes held of 8, and 4 more offered. -/
theorem test_onDrx_overflow :
    afterEvent (.drx abcd) { State.reset with
      rx := { RxUnit.reset with state := .receiving, bytes := 5 }, build := { txMemSize := 8, rxMemSize := 8 } }
      (fun t => (rxStatWord t, statusWord t, t.rx.bytes, t.atx)) = some (0x13, 0x08, 5, []) := by decide +kernel

/-! ## Bus and interrupt (V-B, V-C, V-I) -/

/-- V-B-1 to V-B-7, V-B-12. -/
theorem test_bus_errors :
    [(0x008, 1), (0x00C, 2), (0x002, 4), (0x1002, 4), (0x100, 4), (0x0FC, 4), (0x1240, 4), (0x103E8, 1), (0x1000, 3)].map
      (fun p => hostTarget { txMemSize := 1000, rxMemSize := 1000 } (BitVec.ofNat 18 p.1) p.2) = List.replicate 9 none := by decide

/-- V-B-8 and V-B-9. -/
theorem test_bus_little_endian :
    hostTarget Config.Build.default 0x123C 4 = some (.window .ckBuf 572) ∧
    (afterEvent (.host (.write 0x1014 4 0x4C4C4548)) State.reset (fun t => t.mem.ckBuf)) =
      some [(20, 0x48), (21, 0x45), (22, 0x4C), (23, 0x4C)] ∧
    (afterEvent (.host (.read 0x1014 2)) beforeEncode (fun t => t.hostResp)) = some (some (.data 0x4548)) ∧
    (afterEvent (.host (.read 0x1017 1)) beforeEncode (fun t => t.hostResp)) = some (some (.data 0x4C)) := by decide

/-- V-B-11 and V-TX-8. -/
theorem test_bus_ignored_writes :
    afterEvent (.host (.write 0x2000 4 0x12345678)) State.reset (fun t => (t.mem.txSegbuf, t.hostResp)) = some ([], some .written) ∧
    afterEvent (.host (.write 0x020 4 0)) waiting (fun t => (configWord t, statusWord t)) = some (1, 0x80) ∧
    afterEvent (.host (.write 0x10000 1 0xAA)) waiting (fun t => (t.mem.txMem, statusWord t)) = some ([], 0x80) ∧
    afterEvent (.host (.write 0x060 4 9)) waiting (fun t => (t.rtt.sampleIn, statusWord t)) = some (9, 0) := by decide

/-- V-B-13: the read latch. -/
theorem test_bus_latch :
    afterEvent (.host (.read 0x08C 4)) { State.reset with now := 0x700000005 } (fun t => (t.hostResp, t.nowHiL)) =
      some (some (.data 5), 7) ∧
    afterEvent (.host (.read 0x090 4)) { State.reset with now := 0x700000005 } (fun t => (t.hostResp, t.nowHiL)) =
      some (some (.data 0), 0) := by decide

/-- V-C-1, V-C-4, V-C-8, V-C-10. -/
theorem test_commands_on_the_bus :
    afterEvent (.host (.write 0x008 4 0x101)) State.reset (fun t => (statusWord t, errCauseWord t)) = some (0x40, 1) ∧
    afterEvent (.host (.write 0x008 4 0)) State.reset (fun t => (statusWord t, t.hostResp)) = some (0, some .written) ∧
    afterEvent (.host (.write 0x00C 4 1)) { State.reset with status := 0x21 } (fun t => statusWord t) = some 0x20 ∧
    afterEvent (.host (.read 0x008 4)) State.reset (fun t => t.hostResp) = some (some (.data 0)) := by decide

/-- R442: CONFIG stores bits 0, 1 and 15:8; IRQ_EN stores bits 7:0. -/
theorem test_register_writes :
    afterEvent (.host (.write 0x020 4 0xFFFFFFFF)) State.reset (fun t => configWord t) = some 0x0000FF03 ∧
    afterEvent (.host (.write 0x010 4 0xFFFFFFFF)) State.reset (fun t => irqEnWord t) = some 0x000000FF := by decide

/-- V-I-1, V-I-2, V-I-5. -/
theorem test_irq :
    State.irq { State.reset with status := 0x21, irqEn := 0x01 } = true ∧
    State.irq { State.reset with status := 0x20, irqEn := 0x01 } = false ∧
    State.irq { State.reset with status := 0xFF, irqEn := 0 } = false := by decide

/-- R476: in one cycle a token goes before a TICK, and RST discards the rest. -/
theorem test_cycle_order :
    Cycle.events { rst := false, arx := some 5, drx := none, host := none, tick := true } = [.arx 5, .tick] ∧
    Cycle.events { rst := true, arx := some 5, drx := none, host := none, tick := true } = [.rst] := by decide

/-- withFetchWord places a command that the next step runs (log entry 13). -/
theorem test_withFetchWord :
    nextOf (step (State.reset.withFetchWord 32 0x03)) = some { rxIn .receiving with hostResp := some .written } := by decide

/-- RST keeps the build and the pending events and counts itself (log entry 15). -/
theorem test_rst :
    afterEvent .rst { waiting with inputs := [.tick], dtx := [hello], status := 0x21 } id =
      some { State.reset with inputs := [.tick], resets := 1 } := by decide +kernel

/-! ## Witnesses: a concrete state and operands that meet the hypotheses of each statement, at the bounds of each clause -/

theorem witness_DecodeOfEncodeIsIdentity : Instr.segEncode.wf = true := by decide

theorem witness_StepRunsTheDecodedCommand :
    decode 0x00000003#32 = .ok .rxStart ∧ (presented [cmdWrite 0x00000003#32]).inputs = cmdWrite 0x00000003#32 :: [] := by decide

/-- The words next to the map's: one bit above OPCODE, and the codes around each block of the map. -/
theorem witness_IllegalWordOnlyReports :
    (presented [cmdWrite 0x00000100#32, .tick]).inputs = cmdWrite 0x00000100#32 :: [.tick] ∧
    (∀ w ∈ [0x00000100#32, 0x80000001#32, 0x00000005#32, 0x0000000F#32, 0x00000014#32, 0x0000001F#32, 0x00000022#32, 0x000000FF#32],
      ∀ i : Instr, w ≠ encode i) := by
  refine ⟨rfl, ?_⟩
  intro w hw i
  simp only [List.mem_cons, List.not_mem_nil, or_false] at hw
  rcases hw with rfl | rfl | rfl | rfl | rfl | rfl | rfl | rfl <;> cases i <;> decide

theorem witness_StepTakesTheNextEvent : State.reset.inputs = [] ∧ (presented [.tick, .rst]).inputs = .tick :: [.rst] := by decide

/-- A cycle with a reset and a cycle with one event of each other kind. -/
theorem witness_SimultaneousEventOrder :
    (Cycle.mk true (some 1) none none true).rst = true ∧
    (Cycle.mk false (some 1) (some []) (some (.read 0 4)) true).events = [.arx 1, .drx [], .host (.read 0 4), .tick] := by decide

theorem witness_ResetRegisterValues : 0x000 ∈ registerOffsets ∧ 0x0DC ∈ registerOffsets ∧ 0x0E0 ∉ registerOffsets := by decide

theorem witness_RstResetsEverything : (presented [.rst, .tick]).inputs = .rst :: [.tick] := by decide

/-- A rejected access of each kind: a register with 1 byte, a hole, a misaligned and a straddling window access, a bad size. -/
theorem witness_RejectedAccessIsBusError :
    (presented [.host (.read 0x008 1)]).build.wf = true ∧
    (presented [.host (.read 0x008 1)]).inputs = .host (.read 0x008 1) :: [] ∧
    ¬ Admitted Config.Build.default (accessAddr (.read 0x008 1)) (accessSize (.read 0x008 1)) ∧
    ∀ h ∈ [HostAccess.read 0x0E0 4, .read 0x100 4, .write 0x1002 4 0, .read 0x1240 4, .read 0x1000 3, .write 0x3240 1 0],
      ¬ Admitted Config.Build.default (accessAddr h) (accessSize h) := by
  refine ⟨by decide, rfl, ?_, ?_⟩
  · exact (hostTarget_eq_none_iff (by decide) _ _).mp (by decide)
  · intro h hh
    simp only [List.mem_cons, List.not_mem_nil, or_false] at hh
    rcases hh with rfl | rfl | rfl | rfl | rfl | rfl <;>
      exact (hostTarget_eq_none_iff (by decide) _ _).mp (by decide)

/-- A read with a latch and one without; the first and the last register and one of several fields. -/
theorem witness_OnlyThreeReadsLatch :
    (presented [.host (.read 0x08C 4)]).build.wf = true ∧
    (presented [.host (.read 0x08C 4)]).inputs = .host (.read 0x08C 4) :: [] ∧
    Admitted Config.Build.default (0x08C : HostAddr).toNat 4 ∧ Admitted Config.Build.default (0x088 : HostAddr).toNat 4 ∧
    ((0x000 : HostAddr).toNat, 0x53574131) ∈ registerContents State.reset ∧
    ((0x0DC : HostAddr).toNat, 0) ∈ registerContents State.reset ∧
    ((0x040 : HostAddr).toNat, 0x133) ∈ registerContents (failedWith .giveUp) := by
  exact ⟨by decide, rfl, .inl (by decide), .inl (by decide), by decide, by decide, by decide⟩

/-- The first and the last bytes of each window. -/
theorem witness_WindowReadIsLittleEndian :
    (presented [.host (.read 0x123C 4)]).build.wf = true ∧
    (presented [.host (.read 0x123C 4)]).inputs = .host (.read 0x123C 4) :: [] ∧
    InWindow Config.Build.default 0x123C 4 .ckBuf 572 ∧ InWindow Config.Build.default 0x1000 1 .ckBuf 0 ∧
    InWindow Config.Build.default 0x223F 1 .txSegbuf 575 ∧ InWindow Config.Build.default 0x3000 2 .rxSegbuf 0 ∧
    InWindow Config.Build.default 0x1FFFE 2 .txMem 65534 ∧ InWindow Config.Build.default 0x20000 4 .rxMem 0 ∧
    InWindow Config.Build.default 0x2FFFC 4 .rxMem 65532 := by
  simp [InWindow, windowBase, spaceSize, presented, State.reset, Config.Build.default, Config.Build.wf]

theorem witness_WindowWriteStoresItsBytes :
    (presented [.host (.write 0x1FFFC 4 7)]).build.wf = true ∧
    (presented [.host (.write 0x1FFFC 4 7)]).inputs = .host (.write 0x1FFFC 4 7) :: [] ∧
    InWindow Config.Build.default 0x1FFFC 4 .txMem 65532 ∧ (presented [.host (.write 0x1FFFC 4 7)]).tx.state ≠ .sending ∧
    InWindow Config.Build.default 0x123F 1 .ckBuf 575 := by
  simp [InWindow, windowBase, spaceSize, presented, State.reset, Config.Build.default, Config.Build.wf, TxUnit.reset]

/-- A locked register write and a locked TX_MEM write. -/
theorem witness_LockedWritesAreIgnored :
    waiting.build.wf = true ∧ waiting.tx.state = .sending ∧
    ({ waiting with inputs := [.host (.write 0x038 4 0)] }).inputs = .host (.write 0x038 4 0) :: [] ∧
    (0x038 : HostAddr).toNat ∈ [0x020, 0x024, 0x028, 0x02C, 0x030, 0x034, 0x038] ∧
    InWindow waiting.build 0x10000 1 .txMem 0 := by
  simp [InWindow, windowBase, spaceSize, waiting, State.reset, Config.Build.default, Config.Build.wf, TxUnit.reset]

/-- A read-only register and each read-only window. -/
theorem witness_ReadOnlyWritesAreIgnored :
    (presented [.host (.write 0x000 4 1)]).build.wf = true ∧
    (presented [.host (.write 0x000 4 1)]).inputs = .host (.write 0x000 4 1) :: [] ∧
    Reg.id.access = .ro ∧ (0x000 : HostAddr).toNat = Reg.id.offset ∧ Reg.segLen.access = .ro ∧
    (0x0DC : HostAddr).toNat = Reg.segLen.offset ∧ InWindow Config.Build.default 0x2000 4 .txSegbuf 0 ∧
    InWindow Config.Build.default 0x323C 4 .rxSegbuf 572 ∧ InWindow Config.Build.default 0x2FFFF 1 .rxMem 65535 := by
  simp [InWindow, windowBase, spaceSize, presented, State.reset, Config.Build.default, Config.Build.wf, Reg.access, Reg.offset]

theorem witness_RegisterWriteReadsBack :
    (presented [.host (.write (BitVec.ofNat 18 Reg.config.offset) 4 5)]).inputs = .host (.write 0x020 4 5) :: [] ∧
    Reg.config.access = .rwl ∧ State.reset.tx.state ≠ .sending ∧ Reg.irqEn.access = .rw ∧ Reg.segFlags.access = .rw := by decide

theorem witness_StatusWriteClearsOnes : (0xFFFFFF00#32).extractLsb' 0 8 = 0 := by decide

/-- An illegal use of every command that has one. -/
theorem witness_IllegalUseOnlyReports :
    ¬ Legal (txIn .sending) .txStart ∧ ¬ Legal (txIn .done) .txStart ∧ ¬ Legal (txIn .sending) .txClear ∧
    ¬ Legal (rxIn .failed) .rxStart ∧ ¬ Legal (rxIn .receiving) .rxClear ∧
    ¬ Legal { State.reset with ck := { CkUnit.reset with segAck := 557 } } .segEncode ∧
    ¬ Legal (txIn .sending) .rttInit ∧ ¬ Legal (txIn .sending) .rttSample := by
  simp only [Legal]
  decide

/-- A legal use of every command. -/
theorem witness_LegalUseRaisesNoCommandError : ∀ i : Instr, Legal State.reset i := by
  intro i
  cases i <;> simp only [Legal] <;> decide

theorem witness_ChecksumClosedForm : hello.length = 576 := by decide +kernel

/-- A covered byte and a byte of the checksum field. -/
theorem witness_SingleByteChangeIsDetected :
    hello.length = 576 ∧ 20 < 576 ∧ (0x49 : Byte) ≠ hello.getD 20 0 ∧ verify hello = true ∧ 17 < 576 ∧
    (0 : Byte) ≠ hello.getD 17 0 := by decide +kernel

theorem witness_BuiltSegmentsVerify : ([] : List Byte).length ≤ 556 ∧ (List.replicate 556 (0 : Byte)).length ≤ 556 := by
  decide +kernel

theorem witness_CkVerifyResult : (withBuffer hello).ck.len = 576 ∧ beforeEncode.ck.len ≠ 576 := by decide +kernel

theorem witness_SegDecodeResult : (withBuffer wrapped).ck.len = 576 ∧ beforeEncode.ck.len ≠ 576 := by decide +kernel

theorem witness_SegEncodeBuildsInPlace :
    (beforeEncode.ck.segAck - beforeEncode.ck.segSeq).toNat ≤ 556 ∧
    (({ CkUnit.reset with segAck := 556 }).segAck - ({ CkUnit.reset with segAck := 556 }).segSeq).toNat ≤ 556 := by decide

theorem witness_EncodeDecodeVerifyRoundTrip : (beforeEncode.ck.segAck - beforeEncode.ck.segSeq).toNat ≤ 556 := by decide

theorem witness_RttInitResult : (rttStart 6 true true 0 0).tx.state ≠ .sending ∧ (txIn .sending).tx.state = .sending := by decide

theorem witness_RttSampleIsExact : (rttStart 0xFFFFFFFF true true 0 0).tx.state ≠ .sending := by decide

theorem witness_OverridePolicyConverges :
    (rttStart 6 true true 0xA00 0).tx.state ≠ .sending ∧ (rttStart 6 true true 0xA00 0).cfg.firstOvr = true ∧
    (rttStart 6 true true 0xA00 0).rtt.first = true ∧ (rttStart 6 true true 0xA00 0).rtt.sampleIn.toNat < 2 ^ 24 := by decide

/-- A mean above the sample (the first blended one) and a mean below it. -/
theorem witness_BlendPolicyDistance :
    (rttStart 6 false true 0xA00 0).tx.state ≠ .sending ∧
    ¬ ((rttStart 6 false true 0xA00 0).cfg.firstOvr = true ∧ (rttStart 6 false true 0xA00 0).rtt.first = true) ∧
    (rttStart 6 false true 0xA00 0).rtt.sampleIn.toNat < 2 ^ 24 ∧
    (rttStart 6 false true 0xA00 0).rtt.est.toNat = 256 * (rttStart 6 false true 0xA00 0).rtt.sampleIn.toNat + 0x400 ∧
    ¬ ((rttStart 6 true false 0x5F9 0).cfg.firstOvr = true ∧ (rttStart 6 true false 0x5F9 0).rtt.first = true) ∧
    (rttStart 6 true false 0x5F9 0).rtt.est.toNat + 7 = 256 * (rttStart 6 true false 0x5F9 0).rtt.sampleIn.toNat := by decide

theorem witness_SegmentationCoversTheStream : 0 ≤ 65536 ∧ 65536 ≤ 65536 ∧ 0 + 1 < segCount 557 ∧ 117 < segCount 65536 := by decide

/-- The empty input and the largest one. -/
theorem witness_TxStartSendsTheFirstSegment :
    (session 0).build.wf = true ∧ (session 0).tx.state = .building ∧ (session 0).cfg.txLen.toNat ≤ (session 0).build.txMemSize ∧
    (session 0).cfg.window = 1 ∧ (session 65536).cfg.txLen.toNat ≤ (session 65536).build.txMemSize := by decide

/-- Each of the two faults. -/
theorem witness_TxStartFaults :
    (session 65537).tx.state = .building ∧ (session 65537).cfg.txLen.toNat > (session 65537).build.txMemSize ∧
    ({ SessionConfig.reset with window := 0 }).window ≠ 1 := by decide

theorem witness_TxClearReturnsToBuilding :
    (txIn .sending).tx.state = .sending ∧ (txIn .done).tx.state ≠ .sending ∧ (txIn .failed).tx.state ≠ .sending := by decide

/-- Each clause: outside SENDING, one tick before the timeout, the give-up, the retransmission without and within a retry bound. -/
theorem witness_TickInEveryState :
    (txIn .failed).tx.state ≠ .sending ∧ waiting.tx.state = .sending ∧ (19#32).toNat = min ((18#32).toNat + 1) 0xFFFFFFFF ∧
    (19#32).toNat * 256 < waiting.rtt.timeout.toNat ∧ waiting.rtt.timeout.toNat ≤ (20#32).toNat * 256 ∧
    (2#32 ≠ 0 ∧ (2#32).toNat ≤ (2#32).toNat) ∧ waiting.cfg.maxRetry = 0 ∧ (1#32).toNat < (2#32).toNat := by decide

/-- K = 1, where TIMEOUT is 0, and K = 3. -/
theorem witness_TimeoutRetransmitsAtTickK :
    (txIn .sending).tx.state = .sending ∧ (txIn .sending).tx.elapsed = 0 ∧ (txIn .sending).cfg.maxRetry = 0 ∧
    ({ txIn .sending with inputs := [.tick, .rst] }).inputs =
      List.replicate (timeoutTick (txIn .sending).rtt.timeout) Event.tick ++ [.rst] ∧
    timeoutTick 0x201 = 3 ∧
    ({ txIn .sending with
        rtt := { RttUnit.reset with timeout := 0x201 }, inputs := [.tick, .tick, .tick, .arx 0] }).inputs =
      List.replicate (timeoutTick 0x201) Event.tick ++ [.arx 0] := by decide

/-- Both ways a token is not accepted. -/
theorem witness_UnacceptedTokenChangesNothing :
    (txIn .building).tx.state ≠ .sending ∧ ({ SessionConfig.reset with ackCheck := true }).ackCheck = true ∧
    (9 : Word) ≠ waiting.tx.ack := by decide

theorem witness_RxStartBeginsReception : State.reset.rx.state = .idle ∧ (rxIn .done).rx.state ≠ .idle := by decide

theorem witness_RxClearReturnsToIdle : (rxIn .failed).rx.state ≠ .receiving ∧ (rxIn .receiving).rx.state = .receiving := by decide

theorem witness_DatagramOutsideReceivingIsIgnored : (rxIn .done).rx.state ≠ .receiving := by decide

/-- Each kind of bad datagram: too short, too long, corrupt, a wrapped payload length. -/
theorem witness_BadDatagramsAreDropped :
    (rxIn .receiving).rx.state = .receiving ∧ ([] : Datagram).length ≠ 576 ∧ (List.replicate 577 (0 : Byte)).length ≠ 576 ∧
    (hello.set 20 0x49).length = 576 ∧ num16 (hello.set 20 0x49) 16 ≠ closedForm (wordTotal (hello.set 20 0x49)) ∧
    wrapped.length = 576 ∧ num16 wrapped 16 = closedForm (wordTotal wrapped) ∧ 556 < trueLength wrapped := by decide +kernel

/-- A receiver with room for 8 bytes that holds 5. -/
def nearlyFull : State :=
  { State.reset with
    rx := { RxUnit.reset with state := .receiving, bytes := 5 }, build := { txMemSize := 8, rxMemSize := 8 } }

theorem valid_hello : Valid hello := by
  unfold Valid
  decide +kernel

theorem valid_abcd : Valid abcd := by
  unfold Valid
  decide +kernel

theorem witness_OverflowFaultsTheReceiver :
    nearlyFull.rx.state = .receiving ∧ Valid abcd ∧ nearlyFull.build.rxMemSize < nearlyFull.rx.bytes.toNat + trueLength abcd :=
  ⟨rfl, valid_abcd, by decide +kernel⟩

/-- The last segment, and one that is not the last and just fits. -/
theorem witness_ValidSegmentIsDelivered :
    (rxIn .receiving).build.wf = true ∧ (rxIn .receiving).rx.state = .receiving ∧ Valid hello ∧ num hello 14 ≠ 0 ∧
    (rxIn .receiving).rx.bytes.toNat + trueLength hello ≤ (rxIn .receiving).build.rxMemSize ∧ Valid abcd ∧ num abcd 14 = 0 ∧
    4 + trueLength abcd ≤ 8 :=
  ⟨by decide, rfl, valid_hello, by decide +kernel, by decide +kernel, valid_abcd, by decide +kernel, by decide +kernel⟩

theorem witness_ReceptionConcatenatesPayloads :
    (rxIn .receiving).build.wf = true ∧ (rxIn .receiving).rx.state = .receiving ∧ (∀ d ∈ [abcd, abcd, hello], Valid d) ∧
    (∀ d ∈ [abcd, abcd, hello].dropLast, num d 14 = 0) ∧
    (rxIn .receiving).rx.bytes.toNat + ([abcd, abcd, hello].map trueLength).sum ≤ (rxIn .receiving).build.rxMemSize := by
  refine ⟨by decide, rfl, ?_, by decide +kernel, by decide +kernel⟩
  intro d hd
  simp only [List.mem_cons, List.not_mem_nil, or_false] at hd
  rcases hd with rfl | rfl | rfl
  · exact valid_abcd
  · exact valid_abcd
  · exact valid_hello

/-- A session for n bytes whose first segment is on the wire, with a token presented. -/
def begun (n tok : Word) : State := { (session n).clearStats.beginSession with inputs := [.arx tok] }

/-- The invariant holds in a state with a transfer under way. -/
theorem begun_inv (n tok : Word) (hn : n.toNat ≤ 65536) : Inv (begun n tok) := by
  have hm : (begun n tok).mem =
      (session n).mem.put .txSegbuf (Memory.write [] 0 ((session n).clearStats.beginSession.segment 0)) := rfl
  have hseg : ((session n).clearStats.beginSession.segment 0).length = 576 := length_segment _ _
  have hcount : segCount n.toNat ≤ 118 := by
    simp only [segCount, ceilDiv, Config.mss]
    omega
  have hpos := one_le_segCount n.toNat
  have hack : segAck n.toNat 0 < 2 ^ 32 := by
    simp only [segAck, segSeq, segLen, Config.mss]
    omega
  have hnseg : (begun n tok).tx.nseg.toNat = segCount n.toNat := by
    show (BitVec.ofNat 32 (segCount n.toNat)).toNat = _
    rw [BitVec.toNat_ofNat]
    omega
  refine ⟨rfl, ?_, ?_, Nat.zero_le _, fun _ => ?_, ?_, ?_⟩
  · intro sp
    rw [hm, Mems.get_put]
    split
    · rename_i h
      subst h
      refine ⟨Memory.wf_write rfl _ _, Memory.bound_write (by simp) ?_⟩
      rw [hseg]
      exact Nat.le_refl _
    · rename_i h
      cases sp
      case txMem =>
        refine ⟨rfl, ?_⟩
        show ∀ c ∈ (session 0).mem.txMem, c.1 < 65536
        decide
      case txSegbuf => exact absurd rfl h
      all_goals exact ⟨rfl, by intro c hc; cases hc⟩
  · refine ⟨⟨fun h => absurd rfl h, fun h => ?_⟩, ⟨fun h => absurd rfl h, fun h => ?_⟩⟩ <;> cases h
  · refine ⟨hn, rfl, hnseg, ?_, rfl, ?_, rfl, ?_, ?_, .inl rfl, ?_, .inl rfl⟩
    · rw [hnseg]
      exact hpos
    · show (BitVec.ofNat 32 (segAck n.toNat 0)).toNat = segAck n.toNat 0
      rw [BitVec.toNat_ofNat, Nat.mod_eq_of_lt hack]
    · apply BitVec.eq_of_toNat_eq
      show (sat32 (0 + segLen n.toNat 0)).toNat = (BitVec.ofNat 32 (segAck n.toNat 0)).toNat
      rw [toNat_sat32, BitVec.toNat_ofNat]
      simp only [segAck, segSeq, segLen, Config.mss]
      omega
    · rw [State.retained_congr (s := (session n).clearStats.beginSession) (t := begun n tok) rfl rfl]
      have hr : ((session n).clearStats.beginSession).retained = (session n).clearStats.beginSession.segment 0 :=
        State.retained_transmit _ 0
      rw [hr]
      exact State.segment_congr (s := begun n tok) rfl rfl rfl rfl 0
    · show (0#64 - 0#64).toNat = 0
      rfl
  · intro h
    cases h
  · intro d hd
    have hdtx : (begun n tok).dtx = [(session n).clearStats.beginSession.segment 0] := rfl
    rw [hdtx] at hd
    rw [List.mem_singleton.mp hd]
    exact hseg

/-- A session of two segments, with the first on the wire and its token presented. -/
def started : State := begun 557 556

theorem started_inv : Inv started := begun_inv 557 556 (by decide)

/-- The token of a session of one segment, which completes it. -/
theorem witness_AcceptedFinalTokenCompletes :
    waiting.tx.state = .sending ∧ waiting.cfg.ackCheck = false ∧ (10 : Word) = waiting.tx.ack ∧
    waiting.tx.cur.toNat + 1 = waiting.tx.nseg.toNat ∧
    Inv (begun 4 4) ∧ (begun 4 4).tx.state ≠ .done ∧ ∃ t, step (begun 4 4) = .next t ∧ t.tx.state = .done :=
  ⟨rfl, rfl, by decide, by decide, begun_inv 4 4 (by decide), by decide, _, rfl, by decide +kernel⟩

theorem witness_AcceptedTokenSendsTheNextSegment :
    Inv started ∧ started.tx.state = .sending ∧ started.cfg.ackCheck = false ∧ (556 : Word) = started.tx.ack ∧
    started.tx.cur.toNat + 1 < started.tx.nseg.toNat :=
  ⟨started_inv, rfl, rfl, by decide, by decide⟩

theorem witness_EveryStepKeepsTheInvariant : Inv started ∧ ∃ t, step started = .next t := ⟨started_inv, _, rfl⟩

theorem witness_EveryStepKeepsMemoryCanonical : MemoryCanonical started ∧ ∃ t, step started = .next t :=
  ⟨started_inv.memory, _, rfl⟩

theorem witness_EveryStepKeepsCauseIffFailed : CauseIffFailed started ∧ ∃ t, step started = .next t :=
  ⟨started_inv.causes, _, rfl⟩

theorem witness_OutputTracesOnlyGrow : (∃ t, step started = .next t) ∧ started.nextEvent ≠ some .rst :=
  ⟨⟨_, rfl⟩, by intro h; cases h⟩

/-- A TICK and a token. -/
theorem witness_SenderIgnoresReceiverAndCodec :
    (Event.tick = .tick ∨ ∃ tok, Event.tick = .arx tok) ∧ (Event.arx 5 = .tick ∨ ∃ tok, Event.arx 5 = .arx tok) :=
  ⟨.inl rfl, .inr ⟨5, rfl⟩⟩

/-- A loopback whose input is n bytes of 0x5A, with a timeout of 20 ticks. -/
def loopback (n : Nat) : State :=
  { State.reset with
    cfg := { SessionConfig.reset with txLen := BitVec.ofNat 32 n, initRtt := 0xA00, initTo := 0x1400 }
    mem := { Mems.reset with txMem := Memory.cells 0 (List.replicate n 0x5A) } }

/-- The hypotheses of PerfectChannelDeliversTheStream for a loopback of n bytes and these gaps. -/
def LoopbackRun (n : Nat) (gaps : List (Nat × Nat)) : Prop :=
  ∃ s1 s2, (loopback n).build.wf = true ∧ (loopback n).tx.state = .building ∧ (loopback n).rx.state = .idle ∧
    (loopback n).cfg.window = 1 ∧ (loopback n).cfg.txLen.toNat ≤ (loopback n).build.txMemSize ∧
    (loopback n).cfg.txLen.toNat ≤ (loopback n).build.rxMemSize ∧ exec .rxStart (loopback n) = .next s1 ∧
    exec .txStart s1 = .next s2 ∧ gaps.length = s2.tx.nseg.toNat ∧ (gaps.foldl (fun u g => roundTrip g u) s2).tx.retxCnt = 0

/-- The empty input, one segment, and two segments, with ticks between the arrivals. -/
theorem witness_PerfectChannelDeliversTheStream :
    LoopbackRun 0 [(0, 0)] ∧ LoopbackRun 3 [(2, 1)] ∧ LoopbackRun 557 [(1, 2), (3, 0)] :=
  ⟨⟨_, _, by decide, rfl, rfl, rfl, by decide, by decide, rfl, rfl, by decide, by decide +kernel⟩,
    ⟨_, _, by decide, rfl, rfl, rfl, by decide, by decide, rfl, rfl, by decide, by decide +kernel⟩,
    ⟨_, _, by decide, rfl, rfl, rfl, by decide, by decide, rfl, rfl, by decide +kernel, by decide +kernel⟩⟩

/-! ## The environment -/

/-- I13: the ack channel of the default build loses nothing. -/
theorem test_ack_channel_default : State.reset.build.ackChannelLossy = false := by decide

/-- A finite part of an execution is a run of the core: with TIMEOUT 0 each TICK retransmits (R320, R487). -/
theorem test_execution :
    (execution (fun n => if n = 0 then some (cmdWrite 0x00000001#32) else some .tick) State.reset 3).tx.retxCnt = 2 := by
  decide +kernel

/-- Ticks and tokens that ACK_CHECK rejects, and a receiver offered the same segment, not a FIN, for ever. -/
theorem witness_LivenessGapsAreExecutions :
    let ev : Schedule := fun n => if n % 2 = 0 then some .tick else some (.arx 9)
    let s : State := { waiting with cfg := { waiting.cfg with ackCheck := true } }
    let again : Schedule := fun _ => some (.drx abcd)
    s.tx.state = .sending ∧ s.cfg.maxRetry = 0 ∧ (∀ n, ev n ≠ some .rst) ∧
    (∀ n tok, ev n = some (.arx tok) → s.cfg.ackCheck = true ∧ tok ≠ s.tx.ack) ∧ (∀ k, ∃ m, k ≤ m ∧ ev m = some .tick) ∧
    (rxIn .receiving).rx.state = .receiving ∧ (∀ n, again n ≠ some .rst) ∧
    (∀ n d, again n = some (.drx d) → Valid d → num d 14 = 0) := by
  refine ⟨rfl, rfl, ?_, ?_, ?_, rfl, ?_, ?_⟩
  · intro n
    dsimp only
    split <;> simp
  · intro n tok h
    dsimp only at h
    split at h
    · cases h
    · cases h
      exact ⟨rfl, by decide⟩
  · intro k
    exact ⟨2 * k, by omega, by simp⟩
  · intro n
    simp
  · intro n d h _
    cases h
    decide +kernel

/-- The peer's schedule: one segment arrives, then time passes. -/
def peerSchedule : Schedule := fun n => if n = 0 then some (.drx abcd) else some .tick

/-- The sender's schedule: the peer's token arrives at the second time. -/
def senderSchedule : Schedule := fun n => if n = 1 then some (.arx 4) else some .tick

theorem peer_after (n : Nat) : (execution peerSchedule (rxIn .receiving) (n + 1)).tx.state ≠ .sending ∧
    (execution peerSchedule (rxIn .receiving) (n + 1)).atx = [4] ∧
    tokensSent peerSchedule (rxIn .receiving) (n + 1) = [4] := by
  induction n with
  | zero => decide +kernel
  | succ n ih =>
    obtain ⟨h1, h2, h3⟩ := ih
    have e : execution peerSchedule (rxIn .receiving) (n + 1 + 1) =
        (execution peerSchedule (rxIn .receiving) (n + 1)).advanceNow := by
      show onTick _ = _
      rw [onTick, if_neg h1]
    refine ⟨by rw [e]; exact h1, by rw [e]; exact h2, ?_⟩
    rw [tokensSent, e, h3]
    simp

theorem sender_after (n : Nat) : tokensReceived senderSchedule (n + 2) = [4] := by
  induction n with
  | zero => decide
  | succ n ih =>
    rw [tokensReceived_succ, ih]
    simp [senderSchedule, Event.token]

/-- One token of a peer reaches a sender that waits for it, over the default channel and over a lossy one. -/
theorem witness_NoSegmentPassesWithoutAPeerToken :
    AckChannel senderSchedule waiting peerSchedule (rxIn .receiving) ∧ waiting.tx.state ≠ .done ∧ waiting.tx.cur = 0 ∧
    waiting.build.ackChannelLossy = false ∧
    AckChannel senderSchedule { waiting with build := { waiting.build with ackChannelLossy := true } } peerSchedule
      (rxIn .receiving) := by
  have order : ∀ n, tokensReceived senderSchedule (n + 1) <+: tokensSent peerSchedule (rxIn .receiving) n := by
    intro n
    cases n with
    | zero => decide
    | succ n => rw [sender_after, (peer_after n).2.2]
  refine ⟨?_, by decide, rfl, rfl, ?_⟩
  · rw [AckChannel, if_neg (by decide)]
    refine ⟨order, fun n => ⟨2, ?_⟩⟩
    rw [sender_after 0]
    cases n with
    | zero => decide
    | succ n => rw [(peer_after n).2.2]
  · rw [AckChannel, if_pos rfl]
    exact fun n => (order n).sublist

end Sys2Proof.Tests
end

section
/-! PROOFS. What the environment presents and how a command comes to run (spec/00_scope.md): which event a step takes, and the
way from a write of CMD to the command. -/

namespace Sys2Proof.Machine

/-- A word of the command map written to CMD runs its command (R430). -/
theorem runCommand_of_decode {w : Word} {i : Instr} (h : decode w = .ok i) (s : State) : runCommand w s = exec i s := by
  rw [runCommand, h]

/-- The event cmdWrite is answered and runs its word (R171, R430). -/
@[simp] theorem runEvent_cmdWrite (w : Word) (s : State) : runEvent (cmdWrite w) s = runCommand w (s.respond .written) :=
  hostWrite_cmd s w

/-- A step whose next event is a CMD write runs the word written, on the state with that event taken and answered. -/
theorem step_cmdWrite {s : State} {w : Word} {rest : List Event} (h : s.inputs = cmdWrite w :: rest) :
    step s = runCommand w { s with inputs := rest, hostResp := some .written } := by
  rw [step_cons h, runEvent_cmdWrite, State.respond]

/-- All 32 bits of a command word are kept, so the word of its number is the word itself. -/
@[simp] theorem tableWord_toNat (w : Word) : tableWord 32 w.toNat = w := by
  rw [tableWord, Nat.mod_eq_of_lt w.isLt, BitVec.ofNat_toNat, BitVec.setWidth_eq]

/-- withFetchWord places the write of the word in front of what is already presented (log entry 13). -/
theorem withFetchWord_inputs (s : State) (w : Word) : (s.withFetchWord 32 w.toNat).inputs = cmdWrite w :: s.inputs := by
  rw [State.withFetchWord, tableWord_toNat]

/-- Settles O4: the write reaches CMD whatever the build, is answered, and its word decodes. The second part is the first one on
the state that withFetchWord makes, whose remaining inputs are those of s. -/
theorem stepRunsTheDecodedCommand : Obligations.StepRunsTheDecodedCommand := by
  intro s rest w i hw
  constructor
  · intro h
    rw [step_cmdWrite h, runCommand_of_decode hw]
  · rw [step_cmdWrite (withFetchWord_inputs s w), runCommand_of_decode hw, State.withFetchWord]

/-- Settles O6: the two ways the environment presents an event, one for each form of inputs. -/
theorem stepTakesTheNextEvent : Obligations.StepTakesTheNextEvent :=
  fun _ => ⟨fun _ _ h => step_cons h, fun h => step_nil h⟩

end Sys2Proof.Machine
end

section
/-! PROOFS. Everything a step can do, as a sequence of effects (spec/10_state.md): the effects an invariant has to survive are
named once, and a claim about all steps is proved effect by effect. -/

namespace Sys2Proof.Machine

open Relation

/-! ## The effects -/

/-- t agrees with s in everything the invariants speak of: both units, the memories, the time, the traces and the build, and while
SENDING the configuration and TIMEOUT too (R65, R260, R261). The codec's registers, STATUS, the latches, the host's answer and what
the environment has still to present may differ. -/
structure Quiet (s t : State) : Prop where
  tx : t.tx = s.tx
  rx : t.rx = s.rx
  mem : t.mem = s.mem
  now : t.now = s.now
  dtx : t.dtx = s.dtx
  atx : t.atx = s.atx
  log : t.log = s.log
  resets : t.resets = s.resets
  build : t.build = s.build
  locked : s.tx.state = .sending → t.cfg = s.cfg ∧ t.rtt.timeout = s.rtt.timeout

/-- What the sender can do: the outcomes of a TICK (R320), of TX_START and TX_CLEAR (R300, R301, R330), and of an accepted token
(R312, R313), each with the condition under which it happens. -/
inductive TxEffect (s : State) : State → Prop where
  | tick (h : s.tx.state ≠ .sending) : TxEffect s s.advanceNow
  | wait (h : s.tx.state = .sending) (ht : s.advanceNow.advanceElapsed.timedOut = false) : TxEffect s s.advanceNow.advanceElapsed
  | giveUp (h : s.tx.state = .sending) (ht : s.advanceNow.advanceElapsed.timedOut = true) (hr : s.retriesUsedUp = true) :
      TxEffect s (s.advanceNow.advanceElapsed.raiseTx .giveUp)
  | retransmit (h : s.tx.state = .sending) (ht : s.advanceNow.advanceElapsed.timedOut = true) (hr : s.retriesUsedUp = false) :
      TxEffect s s.advanceNow.advanceElapsed.retransmit
  | start (h : s.tx.state = .building) (hl : s.cfg.txLen.toNat ≤ s.build.txMemSize) (hw : s.cfg.window = 1) :
      TxEffect s s.clearStats.beginSession
  | startFault (c : TxCause) (h : s.tx.state = .building) (hc : c = .input ∨ c = .window) : TxEffect s (s.clearStats.raiseTx c)
  | clear (h : s.tx.state ≠ .sending) : TxEffect s s.leaveTx
  | acceptLast (h : s.tx.state = .sending) (hl : s.tx.cur.toNat + 1 = s.tx.nseg.toNat) : TxEffect s s.sampleAndLog.complete
  | acceptNext (h : s.tx.state = .sending) (hl : s.tx.cur.toNat + 1 ≠ s.tx.nseg.toNat) :
      TxEffect s (s.sampleAndLog.transmit (s.tx.cur.toNat + 1))

/-- What the receiver can do besides storing a datagram in RX_SEGBUF: RX_START and RX_CLEAR (R370, R371), the fault (R384), the two
drops (R382, R383), delivery (R385 to R387) and termination (R388), each with the condition under which it happens. -/
inductive RxEffect (s : State) : State → Prop where
  | start (h : s.rx.state = .idle) : RxEffect s { s with rx := { RxUnit.reset with state := .receiving } }
  | clear (h : s.rx.state ≠ .receiving) : RxEffect s s.leaveRx
  | overflow (h : s.rx.state = .receiving) : RxEffect s (s.raiseRx .overflow)
  | dropMalformed (h : s.rx.state = .receiving) : RxEffect s s.dropMalformed
  | dropCorrupt (h : s.rx.state = .receiving) : RxEffect s s.dropCorrupt
  | deliver (d : Datagram) (h : s.rx.state = .receiving) (hd : d.length = 576) (hp : (decodeSeg d).payloadLength.toNat ≤ 556)
      (hb : s.rx.bytes.toNat + (decodeSeg d).payloadLength.toNat ≤ s.build.rxMemSize) : RxEffect s (s.deliver d)
  | finish (h : s.rx.state = .receiving) : RxEffect s s.finishRx

/-- One effect of a step other than RST: nothing the invariants see, bytes stored inside a memory the host or a datagram may write,
or what one of the two units does. -/
inductive Effect (s : State) : State → Prop where
  | quiet {t : State} (h : Quiet s t) : Effect s t
  | store (sp : Space) (o : Nat) (bs : List Byte)
      (h : sp = .ckBuf ∨ sp = .rxSegbuf ∨ (sp = .txMem ∧ s.tx.state ≠ .sending)) (hb : o + bs.length ≤ spaceSize s.build sp) :
      Effect s (s.writeBytes sp o bs)
  | tx {t : State} (h : TxEffect s t) : Effect s t
  | rx {t : State} (h : RxEffect s t) : Effect s t

/-- A sequence of effects. -/
abbrev Effects : State → State → Prop := ReflTransGen Effect

theorem Effects.of_quiet {s t : State} (h : Quiet s t) : Effects s t := .single (.quiet h)

theorem Effects.of_tx {s t : State} (h : TxEffect s t) : Effects s t := .single (.tx h)

theorem Effects.of_rx {s t : State} (h : RxEffect s t) : Effects s t := .single (.rx h)

/-! ## Quiet steps -/

theorem Quiet.environment (s : State) (l : List Event) (k : Nat) : Quiet s { s with inputs := l, turn := k } :=
  ⟨rfl, rfl, rfl, rfl, rfl, rfl, rfl, rfl, rfl, fun _ => ⟨rfl, rfl⟩⟩

theorem Quiet.respond (s : State) (r : HostResponse) : Quiet s (s.respond r) :=
  ⟨rfl, rfl, rfl, rfl, rfl, rfl, rfl, rfl, rfl, fun _ => ⟨rfl, rfl⟩⟩

theorem Quiet.setStatus (s : State) (b : StatusBit) : Quiet s (s.setStatus b) :=
  ⟨rfl, rfl, rfl, rfl, rfl, rfl, rfl, rfl, rfl, fun _ => ⟨rfl, rfl⟩⟩

theorem Quiet.cmdError (s : State) (c : CmdCause) : Quiet s (s.cmdError c) :=
  ⟨rfl, rfl, rfl, rfl, rfl, rfl, rfl, rfl, rfl, fun _ => ⟨rfl, rfl⟩⟩

theorem Quiet.codec (s : State) (k : CkUnit) : Quiet s { s with ck := k } :=
  ⟨rfl, rfl, rfl, rfl, rfl, rfl, rfl, rfl, rfl, fun _ => ⟨rfl, rfl⟩⟩

theorem Quiet.estimator {s : State} (h : s.tx.state ≠ .sending) (r : RttUnit) : Quiet s { s with rtt := r } :=
  ⟨rfl, rfl, rfl, rfl, rfl, rfl, rfl, rfl, rfl, fun hs => absurd hs h⟩

theorem Quiet.writeReg (s : State) (r : Reg) (v : Word) : Quiet s (s.writeReg r v) := by
  obtain ⟨htx, hrx, hmem, hnow, hdtx, hatx, hlog, hresets, hbuild, hto, hcfg⟩ := writeReg_frame s r v
  exact ⟨htx, hrx, hmem, hnow, hdtx, hatx, hlog, hresets, hbuild, fun h => ⟨hcfg h, hto⟩⟩

theorem Quiet.hostRead (addr : HostAddr) (n : Nat) (s : State) : Quiet s (hostRead addr n s) := by
  obtain ⟨r, a, b, c, h⟩ := hostRead_frame addr n s
  rw [h]
  exact ⟨rfl, rfl, rfl, rfl, rfl, rfl, rfl, rfl, rfl, fun _ => ⟨rfl, rfl⟩⟩

/-! ## The effects of each event -/

/-- TX_START reports, faults, or starts a session (R300, R301). -/
theorem execTxStart_effects (s : State) : ∃ t, execTxStart s = .next t ∧ Effects s t := by
  obtain ⟨-, e⟩ | ⟨hs, -, e⟩ | ⟨hs, -, -, e⟩ | ⟨hs, hl, hw, e⟩ := execTxStart_cases s
  · exact ⟨_, e, .of_quiet (.cmdError s _)⟩
  · exact ⟨_, e, .of_tx (.startFault .input hs (.inl rfl))⟩
  · exact ⟨_, e, .of_tx (.startFault .window hs (.inr rfl))⟩
  · exact ⟨_, e, .of_tx (.start hs hl hw)⟩

/-- SEG_ENCODE reports, or stores the buffer and then its codec registers (R241). -/
theorem execSegEncode_effects (s : State) : ∃ t, execSegEncode s = .next t ∧ Effects s t := by
  rw [execSegEncode]
  split_ifs with h
  · exact ⟨_, rfl, .of_quiet (.cmdError s _)⟩
  · have hlen : s.encodedSegment.length = 576 := length_encodedSegment s (Nat.not_lt.mp h)
    have hstore : Effect s (s.writeBytes .ckBuf 0 s.encodedSegment) := .store _ _ _ (.inl rfl) (by rw [hlen]; exact Nat.le_refl _)
    exact ⟨_, rfl, .tail (.single hstore) (.quiet (.codec _ _))⟩

theorem exec_effects (i : Instr) (s : State) : ∃ t, exec i s = .next t ∧ Effects s t := by
  cases i <;> simp only [exec]
  case nop => exact ⟨s, rfl, .refl⟩
  case txStart => exact execTxStart_effects s
  case txClear =>
    rw [execTxClear]
    split_ifs with h
    · exact ⟨_, rfl, .of_quiet (.cmdError s _)⟩
    · exact ⟨_, rfl, .of_tx (.clear h)⟩
  case rxStart =>
    rw [execRxStart]
    split_ifs with h
    · exact ⟨_, rfl, .of_quiet (.cmdError s _)⟩
    · exact ⟨_, rfl, .of_rx (.start (not_not.mp h))⟩
  case rxClear =>
    rw [execRxClear]
    split_ifs with h
    · exact ⟨_, rfl, .of_quiet (.cmdError s _)⟩
    · exact ⟨_, rfl, .of_rx (.clear h)⟩
  case ckCompute => exact ⟨_, rfl, .of_quiet (.codec s _)⟩
  case ckVerify =>
    rw [execCkVerify]
    split_ifs <;> exact ⟨_, rfl, .of_quiet (.codec s _)⟩
  case segDecode =>
    rw [execSegDecode]
    split_ifs <;> exact ⟨_, rfl, .of_quiet (.codec s _)⟩
  case segEncode => exact execSegEncode_effects s
  case rttInit =>
    rw [execRttInit]
    split_ifs with h
    · exact ⟨_, rfl, .of_quiet (.cmdError s _)⟩
    · exact ⟨_, rfl, .of_quiet (.estimator h _)⟩
  case rttSample =>
    rw [execRttSample]
    split_ifs with h
    · exact ⟨_, rfl, .of_quiet (.cmdError s _)⟩
    · exact ⟨_, rfl, .of_quiet (.estimator h _)⟩

theorem runCommand_effects (w : Word) (s : State) : ∃ t, runCommand w s = .next t ∧ Effects s t := by
  obtain ⟨i, -, e⟩ | e := runCommand_cases w s
  · rw [e]
    exact exec_effects i s
  · exact ⟨_, e, .of_quiet (.cmdError s _)⟩

theorem writeWindow_effects {s : State} {sp : Space} {o n : Nat} (h : o + n ≤ spaceSize s.build sp) (v : Word) :
    Effects s (writeWindow sp o n v s) := by
  obtain e | e | ⟨hsp, e⟩ := writeWindow_cases sp o n v s <;> rw [e]
  · exact .of_quiet (.setStatus s _)
  · exact .single (.store sp o _ (hsp.imp_right .inr) (by rwa [length_hostBytes]))

theorem hostWrite_effects (addr : HostAddr) (n : Nat) (v : Word) (s : State) :
    ∃ t, hostWrite addr n v s = .next t ∧ Effects s t := by
  obtain e | e | ⟨r, e⟩ | ⟨sp, o, ht, e⟩ := hostWrite_cases (s := s) addr n v
  · exact ⟨_, e, .of_quiet (.respond s _)⟩
  · obtain ⟨t, hr, ht⟩ := runCommand_effects v (s.respond .written)
    exact ⟨t, e.trans hr, .head (.quiet (.respond s _)) ht⟩
  · exact ⟨_, e, .tail (.single (.quiet (.writeReg s r v))) (.quiet (.respond _ _))⟩
  · exact ⟨_, e, .tail (writeWindow_effects (bound_of_hostTarget ht) v) (.quiet (.respond _ _))⟩

theorem onTick_effects (s : State) : Effects s (onTick s) := by
  by_cases h : s.tx.state = .sending
  · obtain ⟨ht, e⟩ | ⟨ht, hr, e⟩ | ⟨ht, hr, e⟩ := onTick_cases s h <;> rw [e]
    · exact .of_tx (.wait h ht)
    · exact .of_tx (.giveUp h ht hr)
    · exact .of_tx (.retransmit h ht hr)
  · rw [onTick, if_neg h]
    exact .of_tx (.tick h)

theorem onArx_effects (t : Word) (s : State) : Effects s (onArx t s) := by
  obtain ⟨-, e⟩ | ⟨hs, hl, e⟩ | ⟨hs, hl, e⟩ := onArx_cases t s <;> rw [e]
  · exact .of_tx (.acceptLast hs hl)
  · exact .of_tx (.acceptNext hs hl)

/-- A datagram is ignored, dropped for its length, or stored in RX_SEGBUF and then dropped, refused or delivered (R375 to R388). -/
theorem onDrx_effects (d : Datagram) (s : State) : Effects s (onDrx d s) := by
  have hstore (hd : d.length = 576) : Effect s (s.writeBytes .rxSegbuf 0 d) :=
    .store _ _ _ (.inr (.inl rfl)) (by rw [hd]; exact Nat.le_refl _)
  obtain ⟨-, e⟩ | ⟨hs, -, e⟩ | ⟨hs, hd, -, e⟩ | ⟨hs, hd, -, -, e⟩ | ⟨hs, hd, -, -, -, e⟩ | ⟨hs, hd, -, hp, hb, e⟩ :=
    onDrx_cases d s <;> rw [e]
  · exact .of_rx (.dropMalformed hs)
  · exact .head (hstore hd) (.single (.rx (.dropCorrupt hs)))
  · exact .head (hstore hd) (.single (.rx (.dropMalformed hs)))
  · exact .head (hstore hd) (.single (.rx (.overflow hs)))
  · have hdel : Effects s ((s.writeBytes .rxSegbuf 0 d).deliver d) := .head (hstore hd) (.single (.rx (.deliver d hs hd hp hb)))
    cases (decodeSeg d).fin
    · exact hdel
    · exact .tail hdel (.rx (.finish hs))

theorem runEvent_effects {e : Event} (he : e ≠ .rst) (s : State) : ∃ t, runEvent e s = .next t ∧ Effects s t := by
  cases e with
  | host a =>
    cases a with
    | read addr n => exact ⟨_, rfl, .of_quiet (.hostRead addr n s)⟩
    | write addr n v => exact hostWrite_effects addr n v s
  | tick => exact ⟨_, rfl, onTick_effects s⟩
  | drx d => exact ⟨_, rfl, onDrx_effects d s⟩
  | arx t => exact ⟨_, rfl, onArx_effects t s⟩
  | rst => exact absurd rfl he

/-! ## The effects of a step -/

/-- Everything one step can do: RST, or a sequence of effects (R9). -/
theorem step_effects {s t : State} (h : step s = .next t) :
    (s.nextEvent = some .rst ∧ ∃ u, Quiet s u ∧ t = u.applyReset) ∨ Effects s t := by
  obtain ⟨l, k, -, ⟨-, e⟩ | ⟨x, hx, e⟩⟩ := step_cases s <;> rw [e] at h
  · cases h
    exact .inr (.of_quiet (.environment s l k))
  · by_cases hr : x = .rst
    · subst hr
      cases h
      exact .inl ⟨hx, _, .environment s l k, rfl⟩
    · obtain ⟨u, hu, heff⟩ := runEvent_effects hr { s with inputs := l, turn := k }
      rw [hu] at h
      cases h
      exact .inr (.head (.quiet (.environment s l k)) heff)

/-- What every effect keeps, a sequence of effects keeps. -/
theorem Effects.preserves {P : State → Prop} (effect : ∀ {s t : State}, Effect s t → P s → P t) {s t : State} (h : Effects s t)
    (hs : P s) : P t := by
  induction h with
  | refl => exact hs
  | tail _ he ih => exact effect he ih

/-- What every effect and RST keep, every step keeps. -/
theorem step_preserves {P : State → Prop} (effect : ∀ {s t : State}, Effect s t → P s → P t)
    (reset : ∀ {s : State}, P s → P s.applyReset) {s t : State} (hs : P s) (h : step s = .next t) : P t := by
  obtain ⟨-, u, hq, rfl⟩ | h := step_effects h
  · exact reset (effect (.quiet hq) hs)
  · exact h.preserves effect hs

end Sys2Proof.Machine
end

section
/-! PROOFS. The invariants of the state (spec/10_state.md): the memories, the causes, the traces and the sender's registers. -/

namespace Sys2Proof.Machine

open Sys2Proof.Safety

/-! ## The memories -/

/-- Bytes written inside one memory leave all five canonical and in bounds. -/
theorem memoryCanonical_write {s t : State} (hs : MemoryCanonical s) {sp : Space} {a : Nat} {bs : List Byte}
    (hmem : t.mem = s.mem.put sp ((s.mem.get sp).write a bs)) (hb : t.build = s.build)
    (hlen : a + bs.length ≤ spaceSize s.build sp) : MemoryCanonical t := by
  intro sp'
  rw [hmem, hb, Mems.get_put]
  by_cases h : sp' = sp
  · subst h
    rw [if_pos rfl]
    exact ⟨Memory.wf_write (hs sp').1 a bs, Memory.bound_write (hs sp').2 hlen⟩
  · rw [if_neg h]
    exact hs sp'

theorem memoryCanonical_congr {s t : State} (hs : MemoryCanonical s) (hmem : t.mem = s.mem) (hb : t.build = s.build) :
    MemoryCanonical t := by
  rwa [MemoryCanonical, hmem, hb]

/-- A transmitted segment fills TX_SEGBUF exactly (R310). -/
theorem memoryCanonical_transmit {s : State} (hs : MemoryCanonical s) (k : Nat) : MemoryCanonical (s.transmit k) :=
  memoryCanonical_write hs (State.transmit_mem s k) rfl (by rw [length_segment]; exact Nat.le_refl _)

theorem TxEffect.memoryCanonical {s t : State} (h : TxEffect s t) (hs : MemoryCanonical s) : MemoryCanonical t := by
  cases h with
  | start =>
    rw [State.beginSession]
    apply memoryCanonical_transmit
    exact memoryCanonical_congr hs rfl rfl
  | acceptNext => exact memoryCanonical_transmit (memoryCanonical_congr hs rfl rfl) _
  | _ => exact hs

/-- Delivery stays inside RX_MEM, which the OVERFLOW check has secured (R384, R385). -/
theorem RxEffect.memoryCanonical {s t : State} (h : RxEffect s t) (hs : MemoryCanonical s) : MemoryCanonical t := by
  cases h with
  | deliver d h hd hp hb => exact memoryCanonical_write hs (State.deliver_mem s d) rfl (by rwa [length_payloadOf hd hp])
  | _ => exact hs

theorem Effect.memoryCanonical {s t : State} (h : Effect s t) (hs : MemoryCanonical s) : MemoryCanonical t := by
  cases h with
  | quiet h => exact memoryCanonical_congr hs h.mem h.build
  | store sp o bs _ hb => exact memoryCanonical_write hs rfl rfl hb
  | tx h => exact h.memoryCanonical hs
  | rx h => exact h.memoryCanonical hs

/-- After reset every memory is empty. -/
theorem memoryCanonical_of_reset {t : State} (h : t.mem = Mems.reset) : MemoryCanonical t := by
  intro sp
  rw [h]
  cases sp <;> exact ⟨rfl, by simp [Mems.get, Mems.reset]⟩

/-- Settles O52: every effect writes inside its memory, and RST empties all five. -/
theorem everyStepKeepsMemoryCanonical : Obligations.EveryStepKeepsMemoryCanonical :=
  fun _ _ hs h => step_preserves Effect.memoryCanonical (fun _ => memoryCanonical_of_reset rfl) hs h

/-! ## The causes -/

theorem TxEffect.rx_eq {s t : State} (h : TxEffect s t) : t.rx = s.rx := by
  cases h <;> rfl

theorem RxEffect.tx_eq {s t : State} (h : RxEffect s t) : t.tx = s.tx := by
  cases h <;> rfl

/-- The sender has a cause exactly in FAILED: it gets one only with a fault, and leaves FAILED only by TX_CLEAR (R466, R468). -/
theorem TxEffect.cause_iff {s t : State} (h : TxEffect s t) (hs : s.tx.cause ≠ .none ↔ s.tx.state = .failed) :
    t.tx.cause ≠ .none ↔ t.tx.state = .failed := by
  cases h with
  | giveUp => simp
  | startFault c h hc => obtain rfl | rfl := hc <;> simp
  | clear => simp
  | start h => simpa [h, State.beginSession, TxUnit.transmitted] using hs
  | acceptLast h => simpa [h] using hs
  | acceptNext h => simpa [h, TxUnit.transmitted] using hs
  | _ => exact hs

/-- The receiver likewise (R371, R466). -/
theorem RxEffect.cause_iff {s t : State} (h : RxEffect s t) (hs : s.rx.cause ≠ .none ↔ s.rx.state = .failed) :
    t.rx.cause ≠ .none ↔ t.rx.state = .failed := by
  cases h with
  | start => simp [RxUnit.reset]
  | clear => simp
  | overflow => simp
  | finish h => simpa [h] using hs
  | _ => exact hs

theorem Effect.causeIffFailed {s t : State} (h : Effect s t) (hs : CauseIffFailed s) : CauseIffFailed t := by
  obtain ⟨htx, hrx⟩ := hs
  cases h with
  | quiet h => exact ⟨by rwa [h.tx], by rwa [h.rx]⟩
  | store => exact ⟨htx, hrx⟩
  | tx h => exact ⟨h.cause_iff htx, by rwa [h.rx_eq]⟩
  | rx h => exact ⟨by rwa [h.tx_eq], h.cause_iff hrx⟩

theorem causeIffFailed_of_reset {t : State} (htx : t.tx = TxUnit.reset) (hrx : t.rx = RxUnit.reset) : CauseIffFailed t := by
  rw [CauseIffFailed, htx, hrx]
  decide

/-- Settles O53: each unit's effects keep its cause with its state, and neither touches the other unit. -/
theorem everyStepKeepsCauseIffFailed : Obligations.EveryStepKeepsCauseIffFailed :=
  fun _ _ hs h => step_preserves Effect.causeIffFailed (fun _ => causeIffFailed_of_reset rfl rfl) hs h

/-! ## The traces -/

/-- DTX stands, or one datagram of 576 bytes is emitted at its end (R119, R310, R321). -/
theorem Effect.dtx_eq {s t : State} (h : Effect s t) : t.dtx = s.dtx ∨ ∃ d : Datagram, d.length = 576 ∧ t.dtx = s.dtx ++ [d] := by
  cases h with
  | quiet h => exact .inl h.dtx
  | store => exact .inl rfl
  | tx h =>
    cases h with
    | retransmit => exact .inr ⟨_, length_retained _, rfl⟩
    | start => exact .inr ⟨_, length_segment _ _, rfl⟩
    | acceptNext => exact .inr ⟨_, length_segment _ _, rfl⟩
    | _ => exact .inl rfl
  | rx h => exact .inl (by cases h <;> rfl)

/-- Only delivery emits a token (R386). -/
theorem Effect.atx_prefix {s t : State} (h : Effect s t) : s.atx <+: t.atx := by
  cases h with
  | quiet h => rw [h.atx]
  | store => exact List.prefix_rfl
  | tx h => cases h <;> exact List.prefix_rfl
  | rx h =>
    cases h with
    | deliver => exact List.prefix_append _ _
    | _ => exact List.prefix_rfl

/-- Only an accepted token and a delivery emit a record (R312, R387). -/
theorem Effect.log_prefix {s t : State} (h : Effect s t) : s.log <+: t.log := by
  cases h with
  | quiet h => rw [h.log]
  | store => exact List.prefix_rfl
  | tx h =>
    cases h with
    | acceptLast => exact List.prefix_append _ _
    | acceptNext => exact List.prefix_append _ _
    | _ => exact List.prefix_rfl
  | rx h =>
    cases h with
    | deliver => exact List.prefix_append _ _
    | _ => exact List.prefix_rfl

/-- The traces of t continue those of s. -/
def TracesGrow (s t : State) : Prop := s.dtx <+: t.dtx ∧ s.atx <+: t.atx ∧ s.log <+: t.log

theorem Effect.tracesGrow {s t : State} (h : Effect s t) : TracesGrow s t := by
  refine ⟨?_, h.atx_prefix, h.log_prefix⟩
  obtain e | ⟨d, -, e⟩ := h.dtx_eq <;> rw [e]
  exact List.prefix_append _ _

theorem TracesGrow.trans {s t u : State} (h : TracesGrow s t) (h' : TracesGrow t u) : TracesGrow s u :=
  ⟨h.1.trans h'.1, h.2.1.trans h'.2.1, h.2.2.trans h'.2.2⟩

/-- Settles O54: every effect of a step that is not RST extends the traces, or leaves them. -/
theorem outputTracesOnlyGrow : Obligations.OutputTracesOnlyGrow := by
  intro s t h hn
  obtain ⟨hr, -⟩ | h := step_effects h
  · exact absurd hr hn
  · have hrefl : TracesGrow s s := ⟨List.prefix_rfl, List.prefix_rfl, List.prefix_rfl⟩
    exact h.preserves (P := TracesGrow s) (fun he hs => hs.trans he.tracesGrow) hrefl

end Sys2Proof.Machine
end

section
/-! PROOFS. The invariant of the whole machine (spec/10_state.md): what the sender keeps while a segment awaits its acknowledgment
and once the transfer is done, and that every step keeps the whole. -/

namespace Sys2Proof.Machine

open Sys2Proof.Safety

/-! ## Frames -/

/-- t has all that Awaiting reads of s. -/
structure SenderKept (s t : State) : Prop where
  tx : t.tx = s.tx
  cfg : t.cfg = s.cfg
  timeout : t.rtt.timeout = s.rtt.timeout
  now : t.now = s.now
  txMem : t.mem.txMem = s.mem.txMem
  txSegbuf : t.mem.txSegbuf = s.mem.txSegbuf
  resets : t.resets = s.resets
  build : t.build = s.build

theorem SenderKept.awaiting {s t : State} (h : SenderKept s t) (ha : Awaiting s) : Awaiting t where
  input_fits := by rw [h.cfg, h.build]; exact ha.input_fits
  window_one := by rw [h.cfg]; exact ha.window_one
  nseg_eq := by rw [h.tx, h.cfg]; exact ha.nseg_eq
  cur_lt := by rw [h.tx]; exact ha.cur_lt
  seq_eq := by rw [h.tx]; exact ha.seq_eq
  ack_eq := by rw [h.tx, h.cfg]; exact ha.ack_eq
  segSent_eq := by rw [h.tx]; exact ha.segSent_eq
  bytesSent_eq := by rw [h.tx]; exact ha.bytesSent_eq
  retained_eq := by
    rw [State.retained_congr h.txSegbuf h.resets, State.segment_congr h.cfg (congrArg _ h.tx) h.txMem h.resets, h.tx]
    exact ha.retained_eq
  timer := by rw [h.tx, h.timeout]; exact ha.timer
  elapsed_eq := by rw [h.tx, h.now]; exact ha.elapsed_eq
  retries := by rw [h.tx, h.cfg]; exact ha.retries

theorem Quiet.senderKept {s t : State} (h : Quiet s t) (hs : s.tx.state = .sending) : SenderKept s t where
  tx := h.tx
  cfg := (h.locked hs).1
  timeout := (h.locked hs).2
  now := h.now
  txMem := congrArg _ h.mem
  txSegbuf := congrArg _ h.mem
  resets := h.resets
  build := h.build

/-- Nothing the receiver does reaches the sender (R484). -/
theorem RxEffect.senderKept {s t : State} (h : RxEffect s t) : SenderKept s t := by
  cases h <;> exact ⟨rfl, rfl, rfl, rfl, rfl, rfl, rfl, rfl⟩

theorem Effect.build_eq {s t : State} (h : Effect s t) : t.build = s.build := by
  cases h with
  | quiet h => exact h.build
  | store => rfl
  | tx h => cases h <;> rfl
  | rx h => exact h.senderKept.build

/-! ## A transmission -/

/-- A number below 2^32 fits a register. -/
theorem toNat_word {n : Nat} (h : n < 2 ^ 32) : (BitVec.ofNat 32 n).toNat = n :=
  (BitVec.toNat_ofNat n 32).trans (Nat.mod_eq_of_lt h)

theorem txLen_le {s : State} (hb : s.build.wf = true) (hfit : s.cfg.txLen.toNat ≤ s.build.txMemSize) : s.cfg.txLen.toNat ≤ 65536 := by
  have := (Build.wf_iff s.build).mp hb
  omega

theorem segCount_le {len : Nat} (h : len ≤ 65536) : segCount len ≤ 118 := by
  simp only [segCount, ceilDiv, Config.mss]
  omega

/-- After TRANSMIT(k) segment k awaits its acknowledgment, where the k segments before it are what the statistics count (R303,
R310). -/
theorem awaiting_transmit {s : State} {k : Nat} (hb : s.build.wf = true) (hfit : s.cfg.txLen.toNat ≤ s.build.txMemSize)
    (hw : s.cfg.window = 1) (hn : s.tx.nseg.toNat = segCount s.cfg.txLen.toNat) (hk : k < segCount s.cfg.txLen.toNat)
    (hsent : s.tx.segSent.toNat = k) (hbytes : s.tx.bytesSent.toNat = segSeq k) : Awaiting (s.transmit k) := by
  have hlen := txLen_le hb hfit
  have hcount := segCount_le hlen
  have hseq : segSeq k ≤ 65536 := by simp only [segSeq, Config.mss]; omega
  have hack : segAck s.cfg.txLen.toNat k ≤ 65536 := by rw [segAck_of_lt hk]; omega
  have hcur : (BitVec.ofNat 32 k).toNat = k := toNat_word (by omega)
  have hack' : (BitVec.ofNat 32 (segAck s.cfg.txLen.toNat k)).toNat = segAck s.cfg.txLen.toNat k :=
    toNat_word (by omega)
  have hbytes' : (sat32 (s.tx.bytesSent.toNat + segLen s.cfg.txLen.toNat k)).toNat = segAck s.cfg.txLen.toNat k := by
    rw [hbytes]
    exact toNat_sat32_of_le (show segAck s.cfg.txLen.toNat k ≤ _ by omega)
  refine ⟨hfit, hw, hn, ?_, ?_, ?_, ?_, ?_, ?_, .inl rfl, ?_, .inr (Nat.zero_le _)⟩ <;>
    simp only [State.transmit_tx, State.transmit_cfg, State.transmit_now, TxUnit.transmitted]
  · rwa [hcur, hn]
  · rw [hcur, toNat_word (by omega)]
  · rw [hcur, hack']
  · rw [hcur, hsent, toNat_sat32_of_le (by omega)]
  · exact BitVec.eq_of_toNat_eq (hbytes'.trans hack'.symm)
  · rw [hcur, State.retained_transmit]
    exact (State.segment_congr (s := s) (t := s.transmit k) rfl rfl rfl rfl k).symm
  · rw [BitVec.sub_self]
    rfl

/-! ## The sender's invariant -/

/-- What Inv says of the sender's registers. -/
def SenderInv (s : State) : Prop := (s.tx.state = .sending → Awaiting s) ∧ (s.tx.state = .done → Finished s)

theorem SenderInv.of_awaiting {s : State} (h : s.tx.state = .sending) (ha : Awaiting s) : SenderInv s :=
  ⟨fun _ => ha, fun hd => (by rw [h] at hd; cases hd)⟩

theorem SenderInv.of_finished {s : State} (h : s.tx.state = .done) (hf : Finished s) : SenderInv s :=
  ⟨fun hs => (by rw [h] at hs; cases hs), fun _ => hf⟩

/-- In BUILDING and in FAILED nothing is claimed. -/
theorem SenderInv.of_idle {s : State} (h : s.tx.state = .building ∨ s.tx.state = .failed) : SenderInv s := by
  constructor <;> intro hs <;> rw [hs] at h <;> simp at h

/-- What keeps the sender's registers, and while SENDING all that Awaiting reads, keeps its invariant. -/
theorem SenderInv.congr {s t : State} (hs : SenderInv s) (htx : t.tx = s.tx) (hk : s.tx.state = .sending → SenderKept s t) :
    SenderInv t := by
  obtain ⟨ha, hf⟩ := hs
  constructor
  · intro h
    rw [htx] at h
    exact (hk h).awaiting (ha h)
  · intro h
    rw [htx] at h
    obtain ⟨h1, h2, h3⟩ := hf h
    constructor <;> rwa [htx]

/-- ELAPSED advances with NOW: before the timeout it is below 2^24, far from saturation (R45, R320). -/
theorem awaiting_wait {s : State} (h : Awaiting s) (ht : s.advanceNow.advanceElapsed.timedOut = false) :
    Awaiting s.advanceNow.advanceElapsed := by
  have hsmall : s.tx.elapsed.toNat < 2 ^ 24 := by
    obtain h0 | hlt := h.timer
    · rw [h0]
      decide
    · have := s.rtt.timeout.isLt
      omega
  have helapsed : (sat32 (s.tx.elapsed.toNat + 1)).toNat = s.tx.elapsed.toNat + 1 := toNat_sat32_of_le (by omega)
  have htimer : (s.tx.elapsed.toNat + 1) * 256 < s.rtt.timeout.toNat := by
    have := mt (State.timedOut_iff s.advanceNow.advanceElapsed).mpr (Bool.eq_false_iff.mp ht)
    simpa [helapsed] using this
  refine ⟨h.input_fits, h.window_one, h.nseg_eq, h.cur_lt, h.seq_eq, h.ack_eq, h.segSent_eq, h.bytesSent_eq, h.retained_eq,
    .inr ?_, ?_, h.retries⟩ <;> simp only [State.advanceElapsed_tx, State.advanceElapsed_now, State.advanceElapsed_rtt,
    State.advanceNow_tx, State.advanceNow_now, State.advanceNow_rtt, helapsed]
  · exact htimer
  · have := h.elapsed_eq
    bv_omega

/-- A retransmission starts a new wait and counts against the retry bound (R321, R322). -/
theorem awaiting_retransmit {s : State} (h : Awaiting s) (hr : s.retriesUsedUp = false) :
    Awaiting s.advanceNow.advanceElapsed.retransmit := by
  refine ⟨h.input_fits, h.window_one, h.nseg_eq, h.cur_lt, h.seq_eq, h.ack_eq, h.segSent_eq, h.bytesSent_eq, h.retained_eq,
    .inl rfl, ?_, ?_⟩
  · show (s.now + 1 - (s.now + 1)).toNat = 0
    rw [BitVec.sub_self]
    rfl
  · show s.cfg.maxRetry = 0 ∨ (sat32 (s.tx.retryCur.toNat + 1)).toNat ≤ s.cfg.maxRetry.toNat
    have := mt (State.retriesUsedUp_iff s).mpr (Bool.eq_false_iff.mp hr)
    rw [toNat_sat32]
    by_cases h0 : s.cfg.maxRetry = 0
    · exact .inl h0
    · have : ¬ s.cfg.maxRetry.toNat ≤ s.tx.retryCur.toNat := fun hle => this ⟨h0, hle⟩
      omega

/-- TX_START transmits segment 0 of an input that fits, with no segment sent before it (R300, R302). -/
theorem awaiting_start {s : State} (hb : s.build.wf = true) (hfit : s.cfg.txLen.toNat ≤ s.build.txMemSize) (hw : s.cfg.window = 1) :
    Awaiting s.clearStats.beginSession := by
  have hcount := segCount_le (txLen_le hb hfit)
  have hn : (BitVec.ofNat 32 (segCount s.cfg.txLen.toNat)).toNat = segCount s.cfg.txLen.toNat :=
    toNat_word (by omega)
  rw [State.beginSession]
  apply awaiting_transmit
  · exact hb
  · exact hfit
  · exact hw
  · exact hn
  · exact one_le_segCount _
  · rfl
  · rfl

/-- The token of a segment that is not the last sends the next one, which begins where the statistics stand (R312). -/
theorem awaiting_acceptNext {s : State} (hb : s.build.wf = true) (h : Awaiting s) (hl : s.tx.cur.toNat + 1 ≠ s.tx.nseg.toNat) :
    Awaiting (s.sampleAndLog.transmit (s.tx.cur.toNat + 1)) := by
  have hlt : s.tx.cur.toNat + 1 < segCount s.cfg.txLen.toNat := by
    have := h.cur_lt
    have := h.nseg_eq
    omega
  have hbytes : s.tx.bytesSent.toNat = segSeq (s.tx.cur.toNat + 1) := by
    rw [h.bytesSent_eq, h.ack_eq, segAck, segLen_of_lt hlt]
    rfl
  apply awaiting_transmit
  · exact hb
  · exact h.input_fits
  · exact h.window_one
  · exact h.nseg_eq
  · exact hlt
  · exact h.segSent_eq
  · exact hbytes

theorem TxEffect.senderInv {s t : State} (h : TxEffect s t) (hb : s.build.wf = true) (hs : SenderInv s) : SenderInv t := by
  cases h with
  | tick h => exact hs.congr rfl (fun hsend => absurd hsend h)
  | wait h ht => exact .of_awaiting h (awaiting_wait (hs.1 h) ht)
  | giveUp h ht hr => exact .of_idle (.inr rfl)
  | retransmit h ht hr => exact .of_awaiting h (awaiting_retransmit (hs.1 h) hr)
  | start h hl hw => exact .of_awaiting rfl (awaiting_start hb hl hw)
  | startFault c h hc => exact .of_idle (.inr rfl)
  | clear h => exact .of_idle (.inl rfl)
  | acceptLast h hl =>
    have ha := hs.1 h
    have hall : s.tx.segSent = s.tx.nseg := BitVec.eq_of_toNat_eq (ha.segSent_eq.trans hl)
    exact .of_finished rfl ⟨hall, hl, ha.bytesSent_eq⟩
  | acceptNext h hl => exact .of_awaiting rfl (awaiting_acceptNext hb (hs.1 h) hl)

/-- TX_MEM is stored to only outside SENDING (R65), and TX_SEGBUF never by the host, so the retained segment stays the current one. -/
theorem Effect.senderInv {s t : State} (h : Effect s t) (hb : s.build.wf = true) (hs : SenderInv s) : SenderInv t := by
  cases h with
  | quiet h => exact hs.congr h.tx h.senderKept
  | store sp o bs hsp =>
    refine hs.congr rfl (fun hsend => ?_)
    obtain rfl | rfl | ⟨-, hn⟩ := hsp
    · exact ⟨rfl, rfl, rfl, rfl, rfl, rfl, rfl, rfl⟩
    · exact ⟨rfl, rfl, rfl, rfl, rfl, rfl, rfl, rfl⟩
    · exact absurd hsend hn
  | tx h => exact h.senderInv hb hs
  | rx h => exact hs.congr h.tx_eq (fun _ => h.senderKept)

/-! ## The receiver's output and the datagrams -/

/-- RX_BYTES grows only by a delivery that fits (R59, R384). -/
theorem RxEffect.outputFits {s t : State} (h : RxEffect s t) (hs : OutputFits s) : OutputFits t := by
  cases h with
  | start => exact Nat.zero_le _
  | deliver d _ _ _ hb =>
    refine Nat.le_trans ?_ hb
    rw [State.deliver_rx, toNat_sat32]
    exact Nat.min_le_left _ _
  | _ => exact hs

theorem outputFits_congr {s t : State} (hs : OutputFits s) (hrx : t.rx = s.rx) (hb : t.build = s.build) : OutputFits t := by
  rwa [OutputFits, hrx, hb]

theorem Effect.outputFits {s t : State} (h : Effect s t) (hs : OutputFits s) : OutputFits t := by
  cases h with
  | quiet h => exact outputFits_congr hs h.rx h.build
  | store => exact hs
  | tx h => exact outputFits_congr hs h.rx_eq (Effect.tx h).build_eq
  | rx h => exact h.outputFits hs

theorem Effect.datagrams {s t : State} (h : Effect s t) (hs : ∀ d ∈ s.dtx, d.length = 576) : ∀ d ∈ t.dtx, d.length = 576 := by
  obtain e | ⟨d, hd, e⟩ := h.dtx_eq <;> rw [e]
  · exact hs
  · simpa [or_imp, forall_and, hd] using hs

/-! ## The whole machine -/

/-- Every effect keeps the invariant. -/
theorem Effect.inv {s t : State} (h : Effect s t) (hs : Inv s) : Inv t where
  build_wf := by rw [h.build_eq]; exact hs.build_wf
  memory := h.memoryCanonical hs.memory
  causes := h.causeIffFailed hs.causes
  output := h.outputFits hs.output
  awaiting := (h.senderInv hs.build_wf ⟨hs.awaiting, hs.finished⟩).1
  finished := (h.senderInv hs.build_wf ⟨hs.awaiting, hs.finished⟩).2
  datagrams := h.datagrams hs.datagrams

/-- A block whose memories, units and trace have their reset values meets the invariant, in every build of R8. -/
theorem inv_of_reset {t : State} (hb : t.build.wf = true) (hmem : t.mem = Mems.reset) (htx : t.tx = TxUnit.reset)
    (hrx : t.rx = RxUnit.reset) (hd : t.dtx = []) : Inv t where
  build_wf := hb
  memory := memoryCanonical_of_reset hmem
  causes := causeIffFailed_of_reset htx hrx
  output := by simp [OutputFits, hrx, RxUnit.reset]
  awaiting := (SenderInv.of_idle (.inl (by rw [htx]; rfl))).1
  finished := (SenderInv.of_idle (.inl (by rw [htx]; rfl))).2
  datagrams := by simp [hd]

/-- Settles O50: the default build is one of R8, and everything else has its reset value. -/
theorem resetMeetsTheInvariant : Obligations.ResetMeetsTheInvariant := inv_of_reset (by decide) rfl rfl rfl rfl

/-- Settles O51: every effect keeps the invariant, and RST, which keeps the build, establishes it anew. -/
theorem everyStepKeepsTheInvariant : Obligations.EveryStepKeepsTheInvariant :=
  fun _ _ hs h => step_preserves Effect.inv (fun hs => inv_of_reset hs.build_wf rfl rfl rfl rfl) hs h

end Sys2Proof.Machine
end

section
/-! PROOFS. What the host sees of the state (spec/10_state.md): the registers' contents, the latches, the locked set, the reset
values and the interrupt. -/

namespace Sys2Proof.Machine

open Sys2Proof.Safety

/-! ## The words of the registers with fields, as numbers -/

theorem toNat_zero_append {n m : Nat} (x : BitVec m) : (0#n ++ x).toNat = x.toNat := by
  rw [BitVec.toNat_append, BitVec.toNat_ofNat, Nat.zero_mod, Nat.zero_shiftLeft, Nat.zero_or]

theorem toNat_statusWord (s : State) : (statusWord s).toNat = s.status.toNat := toNat_zero_append s.status

theorem toNat_irqEnWord (s : State) : (irqEnWord s).toNat = s.irqEn.toNat := toNat_zero_append s.irqEn

theorem toNat_zero_append_half (x : Half) : (0#16 ++ x : Word).toNat = x.toNat := toNat_zero_append x

/-- Concatenation as a number: the low part's width is the weight of the high part. -/
theorem toNat_append_add {n m : Nat} (x : BitVec n) (y : BitVec m) : (x ++ y).toNat = x.toNat * 2 ^ m + y.toNat := by
  rw [BitVec.toNat_append, Nat.shiftLeft_eq, Nat.mul_comm, ← Nat.two_pow_add_eq_or_of_lt y.isLt]

theorem toNat_errCauseWord (s : State) : (errCauseWord s).toNat = cmdCauseNumber s.cmdCause := by
  rw [errCauseWord]
  cases s.cmdCause <;> rfl

theorem toNat_ckStatusWord (s : State) :
    (ckStatusWord s).toNat = s.ck.verifyOk.toNat + 2 * s.ck.malformed.toNat + 4 * s.ck.lenBad.toNat := by
  rw [ckStatusWord]
  cases s.ck.verifyOk <;> cases s.ck.malformed <;> cases s.ck.lenBad <;> rfl

theorem toNat_configWord (s : State) :
    (configWord s).toNat = s.cfg.firstOvr.toNat + 2 * s.cfg.ackCheck.toNat + 256 * s.cfg.padByte.toNat := by
  simp only [configWord, toNat_append_add, bit, BitVec.toNat_ofBool, BitVec.toNat_ofNat]
  omega

theorem toNat_txStatWord (s : State) :
    (txStatWord s).toNat = txStateNumber s.tx.state + 16 * txCauseNumber s.tx.cause + 256 * s.rtt.first.toNat := by
  rw [txStatWord]
  cases s.tx.state <;> cases s.tx.cause <;> cases s.rtt.first <;> rfl

theorem toNat_rxStatWord (s : State) :
    (rxStatWord s).toNat = rxStateNumber s.rx.state + 16 * rxCauseNumber s.rx.cause := by
  rw [rxStatWord]
  cases s.rx.state <;> cases s.rx.cause <;> rfl

theorem toNat_lo32 (v : DWord) : (lo32 v).toNat = v.toNat % 2 ^ 32 := by
  rw [lo32, BitVec.extractLsb'_toNat, Nat.shiftRight_zero]

/-! ## The register map -/

theorem registerContents_offsets (s : State) : (registerContents s).map Prod.fst = registerOffsets := rfl

/-- The table written apart from the machine lists what a read of each register returns, in the order of R32 (R32 to R63). -/
theorem registerContents_eq (s : State) : registerContents s = Reg.all.map (fun r => (r.offset, (s.regValue r).toNat)) := by
  simp [registerContents, Reg.all, Reg.offset, State.regValue, toNat_statusWord, toNat_irqEnWord, toNat_errCauseWord,
    toNat_ckStatusWord, toNat_configWord, toNat_txStatWord, toNat_rxStatWord, toNat_lo32, toNat_zero_append_half]

theorem Reg.mem_all (r : Reg) : r ∈ Reg.all := by
  cases r <;> decide

theorem regValue_mem_registerContents (s : State) (r : Reg) : (r.offset, (s.regValue r).toNat) ∈ registerContents s := by
  rw [registerContents_eq]
  exact List.mem_map_of_mem r.mem_all

/-- Each offset has one entry in the table. -/
theorem eq_of_mem_registerContents {s : State} {o x y : Nat} (hx : (o, x) ∈ registerContents s) (hy : (o, y) ∈ registerContents s) :
    x = y := by
  have hnodup : ((registerContents s).map Prod.fst).Nodup := by
    rw [registerContents_offsets]
    decide
  exact congrArg Prod.snd (List.inj_on_of_nodup_map hnodup hx hy rfl)

theorem lt_of_mem_registerContents {s : State} {o x : Nat} (h : (o, x) ∈ registerContents s) : o < 0x100 := by
  have hm : o ∈ registerOffsets := by
    rw [← registerContents_offsets s]
    exact List.mem_map_of_mem h
  obtain ⟨r, rfl⟩ := exists_reg_of_mem hm
  exact r.offset_lt

theorem le_addr_of_inWindow {b : Config.Build} {addr : HostAddr} {n : Nat} {sp : Space} {o : Nat} (h : InWindow b addr n sp o) :
    0x1000 ≤ addr.toNat := by
  obtain ⟨ha, -⟩ := h
  cases sp <;> simp only [windowBase] at ha <;> omega

/-- Settles O11: an admitted read reaches a register, whose value is the table's and of whose latches at most one is set, or a
window, whose addresses are no register's. -/
theorem onlyThreeReadsLatch : Obligations.OnlyThreeReadsLatch := by
  intro s rest addr n hb hin hadm
  rw [step_cons hin]
  obtain ⟨r, hr, rfl⟩ | ⟨sp, o, hw⟩ := target_cases_of_admitted hb hadm
  · have haddr : addr = BitVec.ofNat 18 r.offset := by rw [← hr, BitVec.ofNat_toNat, BitVec.setWidth_eq]
    refine ⟨s.regValue r, registerContents_offsets s, ?_, ?_, ?_⟩
    · intro x hx
      rw [hr] at hx
      exact eq_of_mem_registerContents (regValue_mem_registerContents s r) hx
    · rw [runEvent, hostRead_reg hr, haddr]
      cases r <;> rfl
    · rw [haddr]
      cases r <;> simp [Reg.offset, State.regValue, lo32]
  · have hlow := le_addr_of_inWindow hw
    have hne (c : HostAddr) (hc : c.toNat < 0x100) : addr ≠ c := by
      rintro rfl
      omega
    refine ⟨hostValue (s.readBytes sp o n), registerContents_offsets s, ?_, ?_, ?_⟩
    · intro x hx
      have := lt_of_mem_registerContents hx
      omega
    · rw [runEvent, hostRead_window (s := { s with inputs := rest }) hb hw, if_neg (hne 0x08C (by decide)),
        if_neg (hne 0x07C (by decide)), if_neg (hne 0x084 (by decide))]
      rfl
    · refine ⟨?_, ?_, ?_, ?_, ?_, ?_⟩ <;> exact fun h => absurd h (hne _ (by decide))

/-! ## The locked set -/

/-- The offsets of the locked set are those of the RW-L registers (R32, R65). -/
theorem exists_rwl_of_mem {o : Nat} (h : o ∈ [0x020, 0x024, 0x028, 0x02C, 0x030, 0x034, 0x038]) :
    ∃ r : Reg, r.access = .rwl ∧ o = r.offset := by
  simp only [List.mem_cons, List.not_mem_nil, or_false] at h
  obtain rfl | rfl | rfl | rfl | rfl | rfl | rfl := h
  · exact ⟨.config, rfl, rfl⟩
  · exact ⟨.window, rfl, rfl⟩
  · exact ⟨.maxRetry, rfl, rfl⟩
  · exact ⟨.initRtt, rfl, rfl⟩
  · exact ⟨.initTo, rfl, rfl⟩
  · exact ⟨.ports, rfl, rfl⟩
  · exact ⟨.txLen, rfl, rfl⟩

theorem writeReg_locked {s : State} {r : Reg} (hr : r.access = .rwl) (hs : s.tx.state = .sending) (v : Word) :
    s.writeReg r v = s.setStatus .wrIgn := by
  rw [State.writeReg, hr]
  exact if_pos hs

theorem writeWindow_locked {s : State} (hs : s.tx.state = .sending) (o n : Nat) (v : Word) :
    writeWindow .txMem o n v s = s.setStatus .wrIgn := by
  rw [writeWindow, if_pos hs]

/-- Settles O14: the write reaches an RW-L register or the TX_MEM window, and either only sets WR_IGN. -/
theorem lockedWritesAreIgnored : Obligations.LockedWritesAreIgnored := by
  intro s rest addr n v hb hin hs hlocked
  rw [step_cons hin, runEvent]
  obtain ⟨rfl, hm⟩ | ⟨o, hw⟩ := hlocked
  · obtain ⟨r, hr, ha⟩ := exists_rwl_of_mem hm
    have hcmd : r ≠ .cmd := by
      rintro rfl
      cases hr
    rw [hostWrite_reg ha hcmd, writeReg_locked (s := { s with inputs := rest }) hr hs]
    rfl
  · rw [hostWrite_window (s := { s with inputs := rest }) hb hw, writeWindow_locked (s := { s with inputs := rest }) hs]
    rfl

/-! ## Reset -/

/-- Settles O8: a register's offset reaches the register, and its value in the reset state is the column's. -/
theorem resetRegisterValues : Obligations.ResetRegisterValues := by
  intro o ho
  obtain ⟨r, rfl⟩ := exists_reg_of_mem ho
  have haddr : (BitVec.ofNat 18 r.offset).toNat = r.offset := by cases r <;> rfl
  refine ⟨_, rfl, ?_⟩
  rw [hostRead_reg haddr]
  cases r <;> rfl

/-- A byte of an empty memory is the draw of the reset that emptied it (R520). -/
theorem readByte_of_reset {s : State} (h : s.mem = Mems.reset) (sp : Space) (a : Nat) :
    s.readByte sp a = Config.drawByte s.resets sp a := by
  rw [State.readByte, h]
  cases sp <;> rfl

theorem irq_of_status_zero {s : State} (h : s.status = 0) : s.irq = false := by
  simp [State.irq, h]

/-- Settles O9: RST leaves the reset state but for the model's own fields, and empties the memories. -/
theorem rstResetsEverything : Obligations.RstResetsEverything := by
  intro s rest hin
  refine ⟨_, step_cons hin, rfl, rfl, rfl, rfl, rfl, rfl, rfl, rfl, rfl, rfl, rfl, rfl, rfl, rfl, rfl,
    irq_of_status_zero rfl, rfl, rfl, rfl, ?_⟩
  exact readByte_of_reset rfl

/-! ## The interrupt -/

/-- Settles O18: a byte is not 0 when one of its bits is set, and the bits of STATUS AND IRQ_EN are set in both. -/
theorem interruptIsEnabledStatus : Obligations.InterruptIsEnabledStatus := by
  intro s
  have hzero : s.status &&& s.irqEn = 0 ↔ ∀ i, i < 8 → (s.status &&& s.irqEn).getLsbD i = false := by
    rw [BitVec.eq_of_getLsbD_eq_iff]
    simp
  rw [State.irq, bne_iff_ne, ne_eq, hzero]
  simp [BitVec.getLsbD_and]

end Sys2Proof.Machine
end

section
/-! PROOFS. What the host bus does with a memory access (spec/20_memory.md): rejected accesses, window reads and writes, and the
writes that read-only targets ignore. -/

namespace Sys2Proof.Machine

open Sys2Proof.Safety

/-! ## Rejected accesses -/

/-- An access that is not admitted is only answered with a bus error, read or write (R105, R465). -/
theorem runEvent_of_not_admitted {s : State} (hb : s.build.wf = true) {h : HostAccess}
    (hrej : ¬ Admitted s.build (accessAddr h) (accessSize h)) : runEvent (.host h) s = .next (s.respond .busError) := by
  cases h with
  | read addr n => rw [runEvent, hostRead_none ((hostTarget_eq_none_iff hb addr n).mpr hrej)]
  | write addr n v => rw [runEvent, hostWrite_none ((hostTarget_eq_none_iff hb addr n).mpr hrej)]

/-- Settles O10: an access has no target exactly when it is not admitted. -/
theorem rejectedAccessIsBusError : Obligations.RejectedAccessIsBusError := by
  intro s rest h hb hin hrej
  rw [step_cons hin, runEvent_of_not_admitted (s := { s with inputs := rest }) hb hrej, State.respond]

/-! ## Window reads -/

/-- The bytes of a read are the base-256 digits of its value, least significant first (R102). Four bytes fit a word, so no digit
is shifted out. -/
theorem toNat_hostValue {bs : List Byte} (h : bs.length ≤ 4) :
    (hostValue bs).toNat = Nat.ofDigits 256 (bs.map BitVec.toNat) := by
  induction bs with
  | nil => rfl
  | cons b bs ih =>
    rw [List.length_cons] at h
    have hrest : (hostValue bs).toNat < 256 ^ 3 := by
      have hdigits : ∀ x ∈ bs.map BitVec.toNat, x < 256 := by
        intro x hx
        obtain ⟨c, -, rfl⟩ := List.mem_map.mp hx
        exact c.isLt
      calc (hostValue bs).toNat = Nat.ofDigits 256 (bs.map BitVec.toNat) := ih (by omega)
        _ < 256 ^ (bs.map BitVec.toNat).length := Nat.ofDigits_lt_base_pow_length (by decide) hdigits
        _ ≤ 256 ^ 3 := Nat.pow_le_pow_right (by decide) (by rw [List.length_map]; omega)
    have hshift : (hostValue bs <<< 8).toNat = 2 ^ 8 * (hostValue bs).toNat := by
      rw [BitVec.toNat_shiftLeft, Nat.shiftLeft_eq, Nat.mod_eq_of_lt (by omega), Nat.mul_comm]
    rw [hostValue, BitVec.toNat_or, BitVec.toNat_setWidth_of_le (by decide), hshift, Nat.or_comm,
      ← Nat.two_pow_add_eq_or_of_lt b.isLt, List.map_cons, Nat.ofDigits_cons, ← ih (by omega), Nat.add_comm]

/-- A number given by its digits is the sum of the digits times their weights. -/
theorem ofDigits_map_range (b n : Nat) (f : Nat → Nat) :
    Nat.ofDigits b ((List.range n).map f) = ((List.range n).map (fun k => b ^ k * f k)).sum := by
  induction n with
  | zero => rfl
  | succ n ih => simp [List.range_succ, Nat.ofDigits_append, ih]

/-- The value of a read of at most four bytes of a memory, as a number (R102, R107). -/
theorem toNat_hostValue_readBytes (s : State) (sp : Space) (o : Nat) {n : Nat} (hn : n ≤ 4) :
    (hostValue (s.readBytes sp o n)).toNat = ((List.range n).map (fun k => 256 ^ k * (s.readByte sp (o + k)).toNat)).sum := by
  rw [toNat_hostValue (by rwa [State.length_readBytes]), State.readBytes_eq_map, List.map_map, ofDigits_map_range]
  rfl

theorem size_le_of_inWindow {b : Config.Build} {addr : HostAddr} {n : Nat} {sp : Space} {o : Nat}
    (h : InWindow b addr n sp o) : n ≤ 4 := by
  obtain ⟨-, hn, -, -⟩ := h
  omega

/-- Settles O12: the read reaches the window, and its answer is the number whose digits are the bytes. -/
theorem windowReadIsLittleEndian : Obligations.WindowReadIsLittleEndian := by
  intro s rest addr n sp o hb hin hw
  refine ⟨hostValue (s.readBytes sp o n), ?_, toNat_hostValue_readBytes s sp o (size_le_of_inWindow hw)⟩
  rw [step_cons hin, runEvent, hostRead_window (s := { s with inputs := rest }) hb hw]
  rfl

/-! ## Window writes -/

/-- The two windows a host write stores in (R106 to R108). -/
theorem writeWindow_of_writable {s : State} {sp : Space} (h : sp = .ckBuf ∨ (sp = .txMem ∧ s.tx.state ≠ .sending))
    (o n : Nat) (v : Word) : writeWindow sp o n v s = s.writeBytes sp o (hostBytes n v) := by
  obtain rfl | ⟨rfl, hs⟩ := h
  · rfl
  · rw [writeWindow, if_neg hs]

theorem getD_hostBytes {n k : Nat} (h : k < n) (v : Word) : (hostBytes n v).getD k 0 = v.extractLsb' (8 * k) 8 := by
  simp [hostBytes, h]

/-- A byte read after a host write's bytes are stored is one of them, or the byte that was there. -/
theorem readByte_writeBytes_hostBytes (s : State) (sp sp' : Space) (o n a : Nat) (v : Word) :
    (s.writeBytes sp o (hostBytes n v)).readByte sp' a =
      if sp' = sp ∧ o ≤ a ∧ a < o + n then v.extractLsb' (8 * (a - o)) 8 else s.readByte sp' a := by
  rw [State.readByte_writeBytes, length_hostBytes]
  split_ifs with h
  · rw [getD_hostBytes (by omega)]
  · rfl

/-- Settles O13: the write reaches the window and stores its bytes; its answer and the event taken are not read by readByte. -/
theorem windowWriteStoresItsBytes : Obligations.WindowWriteStoresItsBytes := by
  intro s rest addr n v sp o hb hin hw hsp
  have hread := readByte_writeBytes_hostBytes { s with inputs := rest } sp
  refine ⟨(State.writeBytes { s with inputs := rest } sp o (hostBytes n v)).respond .written, ?_, rfl, fun k hk => ?_,
    fun sp' a hout => ?_⟩
  · rw [step_cons hin, runEvent, hostWrite_window (s := { s with inputs := rest }) hb hw,
      writeWindow_of_writable (s := { s with inputs := rest }) hsp]
  · have h := hread sp o n (o + k) v
    rwa [if_pos ⟨rfl, by omega, by omega⟩, Nat.add_sub_cancel_left] at h
  · have h := hread sp' o n a v
    rwa [if_neg hout] at h

/-! ## Read-only targets -/

theorem writeReg_readOnly {r : Reg} (hr : r.access = .ro) (s : State) (v : Word) : s.writeReg r v = s := by
  rw [State.writeReg, hr]

theorem writeWindow_readOnly {sp : Space} (h : sp = .txSegbuf ∨ sp = .rxSegbuf ∨ sp = .rxMem) (o n : Nat) (v : Word) (s : State) :
    writeWindow sp o n v s = s := by
  obtain rfl | rfl | rfl := h <;> rfl

/-- Settles O15: the write reaches a read-only register or window, and either leaves the state as it was. -/
theorem readOnlyWritesAreIgnored : Obligations.ReadOnlyWritesAreIgnored := by
  intro s rest addr n v hb hin hro
  rw [step_cons hin, runEvent]
  obtain ⟨r, hr, rfl, ha⟩ | ⟨sp, o, hsp, hw⟩ := hro
  · have hcmd : r ≠ .cmd := by
      rintro rfl
      cases hr
    rw [hostWrite_reg ha hcmd, writeReg_readOnly hr, State.respond]
  · rw [hostWrite_window (s := { s with inputs := rest }) hb hw, writeWindow_readOnly hsp, State.respond]

end Sys2Proof.Machine
end

section
/-! PROOFS. The command map (spec/30_encoding.md): the words that decode are those of the commands, and every other word written
to CMD is reported as ILLEGAL. -/

namespace Sys2Proof.Machine

/-- The word of each command decodes to it: one row of the map per command (R166). -/
theorem decode_encode (i : Instr) : decode (encode i) = .ok i := by
  cases i <;> rfl

/-- Every row of the map holds W[7:0] of the word of its command, whose W[31:8] is 0 (R165, R166). -/
theorem encode_of_mem_opcodeTable {row : Byte × Instr} (h : row ∈ opcodeTable) : encode row.2 = 0#24 ++ row.1 := by
  have rows : ∀ row ∈ opcodeTable, encode row.2 = 0#24 ++ row.1 := by decide
  exact rows row h

/-- A command word is its reserved bits above its OPCODE (R165). -/
theorem upperBits_append_opcodeOf (w : Word) : w.extractLsb' 8 24 ++ opcodeOf w = w :=
  BitVec.extractLsb'_append_extractLsb' (w := 24) (len := 8)

/-- What the decoder has found when it answers with a command: no reserved bit set, and a row of the map with the word's OPCODE
(R165, R166). -/
theorem mem_opcodeTable_of_decode {w : Word} {i : Instr} (h : decode w = .ok i) :
    w.extractLsb' 8 24 = 0 ∧ (opcodeOf w, i) ∈ opcodeTable := by
  unfold decode at h
  split at h
  · cases h
  · rename_i hupper
    split at h
    · rename_i row hrow
      cases h
      have hop := List.find?_some hrow
      exact ⟨not_not.mp hupper, beq_iff_eq.mp hop ▸ List.mem_of_find?_eq_some hrow⟩
    · cases h

/-- A word that decodes is its command's word: its two fields are those of the row found. -/
theorem eq_encode_of_decode {w : Word} {i : Instr} (h : decode w = .ok i) : w = encode i := by
  obtain ⟨hupper, hrow⟩ := mem_opcodeTable_of_decode h
  calc w = w.extractLsb' 8 24 ++ opcodeOf w := (upperBits_append_opcodeOf w).symm
    _ = 0#24 ++ opcodeOf w := by rw [hupper]; rfl
    _ = encode i := (encode_of_mem_opcodeTable hrow).symm

theorem decode_eq_ok_iff (w : Word) (i : Instr) : decode w = .ok i ↔ w = encode i :=
  ⟨eq_encode_of_decode, fun h => h ▸ decode_encode i⟩

/-- Settles O1: each of the eleven words is the word of the command of its row. -/
theorem commandMapDecodes : Obligations.CommandMapDecodes :=
  ⟨decode_encode .nop, decode_encode .txStart, decode_encode .txClear, decode_encode .rxStart, decode_encode .rxClear,
    decode_encode .ckCompute, decode_encode .ckVerify, decode_encode .segDecode, decode_encode .segEncode,
    decode_encode .rttInit, decode_encode .rttSample⟩

/-- Settles O2: no command is ill formed, so the premise is not needed. -/
theorem decodeOfEncodeIsIdentity : Obligations.DecodeOfEncodeIsIdentity :=
  fun i _ => decode_encode i

/-- Settles O3: a word that decodes has the fields of a row of the map. -/
theorem decodableWordsAreTheCommandMap : Obligations.DecodableWordsAreTheCommandMap := decode_eq_ok_iff

/-- A word outside the map raises CmdError(ILLEGAL), whichever field the decoder rejects (R167, R430). -/
theorem runCommand_of_not_command {w : Word} (h : ∀ i, w ≠ encode i) (s : State) :
    runCommand w s = .next (s.cmdError .illegal) := by
  cases hd : decode w with
  | ok i => exact absurd (eq_encode_of_decode hd) (h i)
  | error e => rw [runCommand, hd]

/-- Settles O5: the write is answered, its word decodes to no command, and CmdError sets STATUS[6] and CMD_CAUSE. -/
theorem illegalWordOnlyReports : Obligations.IllegalWordOnlyReports := by
  intro s rest w hin hw
  rw [step_cmdWrite hin, runCommand_of_not_command hw]
  rfl

end Sys2Proof.Machine
end

section
/-! PROOFS. The codec's pure functions as numbers of a buffer (spec/40_codec.md): the closed form of the checksum, and the wire
segment that BUILD and SEG_ENCODE make. -/

namespace Sys2Proof.Machine

open Sys2Proof.Safety

/-! ## Fields as numbers -/

theorem toNat_be16 (b : Datagram) (i : Nat) : (be16 b i).toNat = num16 b i := by
  rw [be16, toNat_append_add, num16, Nat.mul_comm]
  rfl

/-- The two bytes of a half word give it back, high byte first (R14). -/
theorem two_bytes_toNat (v : Half) : 256 * (v.extractLsb' 8 8).toNat + (v.extractLsb' 0 8).toNat = v.toNat := by
  simp only [BitVec.extractLsb'_toNat, Nat.shiftRight_eq_div_pow]
  omega

/-- The four bytes of a word give it back, high byte first (R14). -/
theorem four_bytes_toNat (v : Word) :
    65536 * (256 * (v.extractLsb' 24 8).toNat + (v.extractLsb' 16 8).toNat) +
      (256 * (v.extractLsb' 8 8).toNat + (v.extractLsb' 0 8).toNat) = v.toNat := by
  simp only [BitVec.extractLsb'_toNat, Nat.shiftRight_eq_div_pow]
  omega

/-! ## The closed form of the checksum (R204) -/

theorem closedForm_eq_zero_iff (t : Nat) : closedForm t = 0 ↔ t = 0 := by
  unfold closedForm
  split_ifs with h
  · simp [h]
  · omega

theorem closedForm_le (t : Nat) : closedForm t ≤ 65535 := by
  unfold closedForm
  split_ifs <;> omega

/-- One end-around addition keeps the closed form of the sum so far. -/
theorem addFold_closedForm (t : Nat) {w : Nat} (hw : w ≤ 65535) : addFold (closedForm t) w = closedForm (t + w) := by
  simp only [addFold, closedForm]
  split_ifs <;> omega

theorem foldl_addFold (ws : List Half) (t : Nat) :
    ws.foldl (fun s w => addFold s w.toNat) (closedForm t) = closedForm (t + (ws.map BitVec.toNat).sum) := by
  induction ws generalizing t with
  | nil => rfl
  | cons w ws ih =>
    rw [List.foldl_cons, addFold_closedForm t (by omega), ih, List.map_cons, List.sum_cons, Nat.add_assoc]

/-- The little-endian words of a buffer of n pairs, as numbers (R112). -/
theorem map_toNat_leWords {n : Nat} {b : Datagram} (h : b.length = 2 * n) :
    (leWords b).map BitVec.toNat = (List.range n).map (fun i => num b (2 * i) + 256 * num b (2 * i + 1)) := by
  induction n generalizing b with
  | zero => rw [List.length_eq_zero_iff.mp h]; rfl
  | succ n ih =>
    match b, h with
    | lo :: hi :: rest, h =>
      have hrest : rest.length = 2 * n := by
        simp only [List.length_cons] at h
        omega
      rw [leWords, List.map_cons, ih hrest, List.range_succ_eq_map, List.map_cons, List.map_map, toNat_append_add,
        Nat.add_comm, Nat.mul_comm]
      rfl

theorem getD_set_zero (b : Datagram) (i : Nat) : (b.set i 0).getD i 0 = 0 := by
  rw [List.getD_eq_getElem?_getD, List.getElem?_set_self']
  cases b[i]? <;> rfl

theorem getD_set_ne (b : Datagram) {i j : Nat} (x : Byte) (h : j ≠ i) : (b.set i x).getD j 0 = b.getD j 0 := by
  rw [List.getD_eq_getElem?_getD, List.getElem?_set_ne h.symm, List.getD_eq_getElem?_getD]

/-- zeroField reads the bytes as the checksum counts them (R201). -/
theorem num_zeroField (b : Datagram) (i : Nat) : num (zeroField b) i = covered b i := by
  rw [num, zeroField]
  obtain rfl | h17 := eq_or_ne i 17
  · rw [getD_set_zero]
    rfl
  · rw [getD_set_ne _ _ h17]
    obtain rfl | h16 := eq_or_ne i 16
    · rw [getD_set_zero]
      rfl
    · rw [getD_set_ne _ _ h16, covered, if_neg (not_or.mpr ⟨h16, h17⟩), num]

/-- CKSUM of a segment is the closed form of the sum of its words (R202, R204). -/
theorem toNat_cksum {b : Datagram} (h : b.length = 576) : (cksum b).toNat = closedForm (wordTotal b) := by
  have hwords : ((leWords (zeroField b)).map BitVec.toNat).sum = wordTotal b := by
    rw [map_toNat_leWords (n := 288) (by rw [length_zeroField, h])]
    simp only [num_zeroField, wordTotal]
  have hfold := foldl_addFold (leWords (zeroField b)) 0
  rw [hwords, Nat.zero_add] at hfold
  have hlt : closedForm (wordTotal b) < 2 ^ 16 := Nat.lt_succ_of_le (closedForm_le _)
  rw [cksum, BitVec.toNat_ofNat, show (0 : Nat) = closedForm 0 from rfl, hfold, Nat.mod_eq_of_lt hlt]

/-- Every covered byte is in one of the 288 words, so it counts towards the sum. -/
theorem wordTotal_eq_zero_iff (b : Datagram) : wordTotal b = 0 ↔ ∀ i, i < 576 → covered b i = 0 := by
  rw [wordTotal, List.sum_eq_zero_iff, List.forall_mem_map]
  simp only [List.mem_range]
  constructor
  · intro h i hi
    have hpair := h (i / 2) (by omega)
    obtain he | ho : i = 2 * (i / 2) ∨ i = 2 * (i / 2) + 1 := by omega
    · rw [he]
      omega
    · rw [ho]
      omega
  · intro h i hi
    rw [h (2 * i) (by omega), h (2 * i + 1) (by omega), Nat.mul_zero, Nat.add_zero]

/-! ## What BUILD makes (R240) -/

theorem getD_putBe16 (b : Datagram) {i j : Nat} (v : Half) (h : j ≠ i) (h' : j ≠ i + 1) :
    (putBe16 b i v).getD j 0 = b.getD j 0 := by
  rw [putBe16, getD_set_ne _ _ h', getD_set_ne _ _ h]

section
variable {src dst : Half} {seq ack : Word} {fin : Bool} {p : List Byte} {pad : Byte}

/-- The header bytes outside the checksum field stand as they were written. -/
theorem num_buildSeg_header {i : Nat} (h : i < 20) (h16 : i ≠ 16) (h17 : i ≠ 17) :
    num (buildSeg src dst seq ack fin p pad) i = num (header src dst seq ack fin) i := by
  rw [num, buildSeg, getD_putBe16 _ _ h16 h17, unsummed, List.append_assoc, List.getD_append _ _ _ _ h, num]

theorem num16_buildSeg_header {i : Nat} (h : i < 15) :
    num16 (buildSeg src dst seq ack fin p pad) i = num16 (header src dst seq ack fin) i := by
  rw [num16, num_buildSeg_header, num_buildSeg_header, num16] <;> omega

theorem num32_buildSeg_header {i : Nat} (h : i < 13) :
    num32 (buildSeg src dst seq ack fin p pad) i = num32 (header src dst seq ack fin) i := by
  rw [num32, num16_buildSeg_header, num16_buildSeg_header, num32] <;> omega

/-- After the header come the payload and then the filler byte (R203). -/
theorem getD_buildSeg_body {k : Nat} (hk : k < 556) :
    (buildSeg src dst seq ack fin p pad).getD (20 + k) 0 = if k < p.length then p.getD k 0 else pad := by
  rw [buildSeg, getD_putBe16 _ _ (by omega) (by omega), unsummed, List.append_assoc,
    List.getD_append_right _ _ _ _ (by rw [length_header]; omega), length_header, Nat.add_sub_cancel_left]
  split_ifs with h
  · exact List.getD_append _ _ _ _ h
  · rw [List.getD_append_right _ _ _ _ (Nat.not_lt.mp h), List.getD_replicate]
    rw [Config.mss_eq]
    omega

/-- The embedded checksum is the one of the whole segment: writing it does not change what is summed (R201, R243). -/
theorem be16_buildSeg_checksum (hp : p.length ≤ 556) :
    be16 (buildSeg src dst seq ack fin p pad) 16 = cksum (buildSeg src dst seq ack fin p pad) := by
  rw [buildSeg, cksum_putBe16, be16_putBe16]
  rw [length_unsummed _ _ _ _ _ _ hp]
  omega

/-- BUILD makes the wire segment of its operands (R151, R240). -/
theorem wireSegment_buildSeg (hp : p.length ≤ 556) :
    WireSegment (buildSeg src dst seq ack fin p pad) src.toNat dst.toNat seq.toNat ack.toNat fin p.length
      (fun k => p.getD k 0) pad where
  length := length_buildSeg _ _ _ _ _ _ hp
  source := (num16_buildSeg_header (by decide)).trans (two_bytes_toNat src)
  dest := (num16_buildSeg_header (by decide)).trans (two_bytes_toNat dst)
  sequence := (num32_buildSeg_header (by decide)).trans (four_bytes_toNat seq)
  acknowledge := (num32_buildSeg_header (by decide)).trans (four_bytes_toNat ack)
  headerSize := num16_buildSeg_header (by decide)
  finByte := by
    rw [num_buildSeg_header (by decide) (by decide) (by decide)]
    cases fin <;> rfl
  ackByte := num_buildSeg_header (by decide) (by decide) (by decide)
  checksum := by
    rw [← toNat_be16, be16_buildSeg_checksum hp,
      toNat_cksum (length_buildSeg _ _ _ _ _ _ hp)]
  reserved := ⟨num_buildSeg_header (by decide) (by decide) (by decide),
    num_buildSeg_header (by decide) (by decide) (by decide)⟩
  body := fun _ hk => getD_buildSeg_body hk

end

/-- A segment whose ackFlag is 1 has a nonzero sum, so its checksum is not 0 (R204). -/
theorem wireSegment_checksum_ne_zero {d : Datagram} {src dst seq ack : Nat} {fin : Bool} {len : Nat}
    {byteOf : Nat → Byte} {pad : Byte} (h : WireSegment d src dst seq ack fin len byteOf pad) : num16 d 16 ≠ 0 := by
  rw [h.checksum, Ne, closedForm_eq_zero_iff, wordTotal_eq_zero_iff]
  intro hzero
  have hack : num d 15 = 0 := hzero 15 (by decide)
  rw [h.ackByte] at hack
  exact absurd hack (by decide)

/-- Settles O24: the wire segment has ackFlag 1, so its sum is not 0, and the checksum field does not count. -/
theorem builtSegmentsVerify : Obligations.BuiltSegmentsVerify := by
  intro src dst seq ack fin p pad hp
  have hwire := wireSegment_buildSeg (src := src) (dst := dst) (seq := seq) (ack := ack) (fin := fin) (pad := pad) hp
  refine ⟨hwire, wireSegment_checksum_ne_zero hwire, ?_⟩
  rw [verify, be16_buildSeg_checksum hp, beq_self_eq_true]

/-! ## SEG_ENCODE (R241) -/

theorem exec_segEncode_of_le {s : State} (h : s.encodeLength.toNat ≤ 556) :
    exec .segEncode s = .next (s.putEncoded s.encodedSegment) :=
  if_neg (Nat.not_lt.mpr h)

/-- The buffer built is what CK_BUF then holds. -/
theorem readBytes_putEncoded (s : State) {d : Datagram} (h : d.length = 576) :
    (s.putEncoded d).readBytes .ckBuf 0 576 = d := by
  have hself := State.readBytes_writeBytes_self s .ckBuf 0 d
  rw [h] at hself
  exact (State.readBytes_congr rfl rfl 0 576).trans hself

/-- A built buffer replaces CK_BUF and no other byte. -/
theorem readByte_putEncoded_outside (s : State) {d : Datagram} (h : d.length = 576) {sp : Space} {a : Nat}
    (hout : sp ≠ .ckBuf ∨ 576 ≤ a) : (s.putEncoded d).readByte sp a = s.readByte sp a := by
  calc (s.putEncoded d).readByte sp a = (s.writeBytes .ckBuf 0 d).readByte sp a := State.readByte_congr rfl rfl a
    _ = s.readByte sp a := by
      rw [State.readByte_writeBytes, if_neg]
      rintro ⟨hsp, -, ha⟩
      obtain hne | hle := hout
      · exact hne hsp
      · omega

theorem getD_readBytes (s : State) (sp : Space) (a : Nat) {n k : Nat} (h : k < n) :
    (s.readBytes sp a n).getD k 0 = s.readByte sp (a + k) := by
  rw [List.getD_eq_getElem?_getD, State.getElem?_readBytes s sp a n k h, Option.getD_some]

/-- Only the bytes inside the payload matter to a wire segment. -/
theorem wireSegment_congr_byteOf {d : Datagram} {src dst seq ack : Nat} {fin : Bool} {len : Nat}
    {f g : Nat → Byte} {pad : Byte} (h : WireSegment d src dst seq ack fin len f pad) (hfg : ∀ k, k < len → f k = g k) :
    WireSegment d src dst seq ack fin len g pad :=
  { h with
    body := fun k hk => by
      rw [h.body k hk]
      split_ifs with hlen
      · exact hfg k hlen
      · rfl }

/-- The two halves of SEG_PORTS as numbers (R62). -/
theorem toNat_ports (w : Word) :
    (w.extractLsb' 0 16).toNat = w.toNat % 65536 ∧ (w.extractLsb' 16 16).toNat = w.toNat / 65536 := by
  simp only [BitVec.extractLsb'_toNat, Nat.shiftRight_eq_div_pow]
  omega

/-- The fin flag SEG_ENCODE reads is whether SEG_FLAGS[7:0] is not 0 (R155, R241). -/
theorem lowByte_ne_zero (w : Word) : (w.extractLsb' 0 8 != 0) = decide (w.toNat % 256 ≠ 0) := by
  have hzero : w.extractLsb' 0 8 = 0 ↔ w.toNat % 256 = 0 := by
    rw [← BitVec.toNat_inj, BitVec.extractLsb'_toNat]
    rfl
  rw [Bool.eq_iff_iff, bne_iff_ne, decide_eq_true_iff, Ne, hzero]

/-- SEG_ENCODE builds the wire segment of the SEG_* fields, with the payload the host placed in CK_BUF. -/
theorem wireSegment_encodedSegment {s : State} (h : s.encodeLength.toNat ≤ 556) :
    WireSegment s.encodedSegment (s.ck.segPorts.toNat % 65536) (s.ck.segPorts.toNat / 65536) s.ck.segSeq.toNat
      s.ck.segAck.toNat (decide (s.ck.segFlags.toNat % 256 ≠ 0)) s.encodeLength.toNat
      (fun k => s.readByte .ckBuf (20 + k)) s.cfg.padByte := by
  obtain ⟨hsrc, hdst⟩ := toNat_ports s.ck.segPorts
  have hp : (s.readBytes .ckBuf 20 s.encodeLength.toNat).length = s.encodeLength.toNat := State.length_readBytes ..
  rw [← hsrc, ← hdst, ← lowByte_ne_zero]
  have hbuilt : WireSegment s.encodedSegment _ _ _ _ _ _ _ _ := wireSegment_buildSeg (hp.trans_le h)
  rw [hp] at hbuilt
  exact wireSegment_congr_byteOf hbuilt (fun k hk => getD_readBytes s .ckBuf 20 hk)

/-- Settles O28: the next state is putEncoded of the segment built, whose bytes CK_BUF then holds. -/
theorem segEncodeBuildsInPlace : Obligations.SegEncodeBuildsInPlace := by
  intro s hlen
  have hlength : s.encodedSegment.length = 576 := length_encodedSegment s hlen
  refine ⟨s.putEncoded s.encodedSegment, be16 s.encodedSegment 16, exec_segEncode_of_le hlen, rfl, ?_, ?_,
    fun sp a hout => readByte_putEncoded_outside s hlength hout⟩
  · rw [readBytes_putEncoded s hlength, toNat_be16]
  · rw [readBytes_putEncoded s hlength]
    exact wireSegment_encodedSegment hlen

end Sys2Proof.Machine
end

section
/-! PROOFS. What the checksum detects, and the commands CK_COMPUTE, CK_VERIFY and SEG_DECODE as numbers of CK_BUF
(spec/40_codec.md), with the round trip through SEG_ENCODE. -/

namespace Sys2Proof.Machine

open Sys2Proof.Safety

/-! ## The sum of the covered bytes -/

theorem num_lt (b : Datagram) (i : Nat) : num b i < 256 := (b.getD i 0).isLt

theorem covered_le (b : Datagram) (i : Nat) : covered b i ≤ 255 := by
  have hnum := num_lt b i
  unfold covered
  split_ifs <;> omega

theorem covered_of_ne {i : Nat} (h16 : i ≠ 16) (h17 : i ≠ 17) (b : Datagram) : covered b i = num b i :=
  if_neg (not_or.mpr ⟨h16, h17⟩)

/-- Bytes outside the checksum field decide what is covered. -/
theorem covered_congr {b b' : Datagram} {j : Nat} (h : j ≠ 16 → j ≠ 17 → num b' j = num b j) : covered b' j = covered b j := by
  unfold covered
  split_ifs with hfield
  · rfl
  · exact h (fun h16 => hfield (.inl h16)) (fun h17 => hfield (.inr h17))

/-- Word k of the sum T: the first byte of the pair is the low byte (R112, R204). -/
def coveredWord (b : Datagram) (k : Nat) : Nat := covered b (2 * k) + 256 * covered b (2 * k + 1)

theorem wordTotal_eq_sum (b : Datagram) : wordTotal b = ((List.range 288).map (coveredWord b)).sum := rfl

theorem coveredWord_le (b : Datagram) (k : Nat) : coveredWord b k ≤ 65535 := by
  have hlo := covered_le b (2 * k)
  have hhi := covered_le b (2 * k + 1)
  unfold coveredWord
  omega

theorem coveredWord_congr {b b' : Datagram} {k : Nat} (h : ∀ j, j / 2 = k → covered b' j = covered b j) :
    coveredWord b' k = coveredWord b k := by
  rw [coveredWord, h (2 * k) (by omega), h (2 * k + 1) (by omega), coveredWord]

theorem wordTotal_le (b : Datagram) : wordTotal b ≤ 288 * 65535 := by
  have hsum := List.sum_le_card_nsmul ((List.range 288).map (coveredWord b)) 65535
    (List.forall_mem_map.mpr fun k _ => coveredWord_le b k)
  rwa [List.length_map, List.length_range] at hsum

/-- Buffers that differ in one covered byte only: the sum changes by that byte's change times its weight in its word (R112). -/
theorem wordTotal_congr_except {b b' : Datagram} {i : Nat} (hi : i < 576) (h : ∀ j, j ≠ i → covered b' j = covered b j) :
    wordTotal b' + 256 ^ (i % 2) * covered b i = wordTotal b + 256 ^ (i % 2) * covered b' i := by
  have hmem : i / 2 ∈ List.range 288 := List.mem_range.mpr (by omega)
  have hrest : ((List.range 288).erase (i / 2)).map (coveredWord b') = ((List.range 288).erase (i / 2)).map (coveredWord b) :=
    List.map_congr_left fun k hk => coveredWord_congr fun j hj =>
      h j fun hji => (List.nodup_range.mem_erase_iff.mp hk).1 (hj.symm.trans (congrArg (· / 2) hji))
  rw [wordTotal_eq_sum, wordTotal_eq_sum, ← List.sum_map_erase _ hmem, ← List.sum_map_erase _ hmem, hrest,
    coveredWord, coveredWord]
  obtain heven | hodd := Nat.mod_two_eq_zero_or_one i
  · have hindex : 2 * (i / 2) = i := by omega
    rw [heven, hindex, h (i + 1) (by omega)]
    omega
  · have hindex : 2 * (i / 2) + 1 = i := by omega
    rw [hodd, hindex, h (2 * (i / 2)) (by omega)]
    omega

theorem cksum_congr {b b' : Datagram} (hb : b.length = 576) (hb' : b'.length = 576)
    (h : ∀ j, j < 576 → covered b' j = covered b j) : cksum b' = cksum b := by
  have htotal : wordTotal b' = wordTotal b := congrArg List.sum <| List.map_congr_left fun k hk =>
    coveredWord_congr fun j hj => h j (by have hlt := List.mem_range.mp hk; omega)
  rw [← BitVec.toNat_inj, toNat_cksum hb', toNat_cksum hb, htotal]

/-- Settles O22: the sum has the closed form, which is 0 for the sum 0 only and 65535 for the other multiples of 65535. -/
theorem checksumClosedForm : Obligations.ChecksumClosedForm := by
  intro b hb
  refine ⟨toNat_cksum hb, wordTotal_le b, ?_, fun hne hmod => ?_⟩
  · rw [toNat_cksum hb, closedForm_eq_zero_iff, wordTotal_eq_zero_iff]
  · have hmax : closedForm (wordTotal b) = 65535 := by
      rw [closedForm, if_neg hne]
      omega
    rw [← BitVec.toNat_inj, toNat_cksum hb, hmax]
    rfl

/-! ## Detection of one changed byte (R206) -/

theorem closedForm_mod (t : Nat) : closedForm t % 65535 = t % 65535 := by
  unfold closedForm
  split_ifs <;> omega

section
variable {b : Datagram} {i : Nat} {x : Byte}

theorem num_set_self (h : i < b.length) (x : Byte) : num (b.set i x) i = x.toNat := by
  rw [num, List.getD_eq_getElem?_getD, List.getElem?_set_self h, Option.getD_some]

theorem num_set_ne {j : Nat} (h : j ≠ i) (x : Byte) : num (b.set i x) j = num b j := by
  rw [num, getD_set_ne _ _ h, num]

/-- A byte of the field does not count, whatever it becomes. -/
theorem cksum_set_field (hb : b.length = 576) (hi : i = 16 ∨ i = 17) (x : Byte) : cksum (b.set i x) = cksum b :=
  cksum_congr hb (List.length_set.trans hb) fun _ _ => covered_congr fun h16 h17 => num_set_ne (by omega) x

/-- A change of a covered byte moves the sum by less than 65535 and by more than 0, so the residue the checksum keeps differs. -/
theorem cksum_set_covered_ne (hb : b.length = 576) (hi : i < 576) (hx : x ≠ b.getD i 0) (h16 : i ≠ 16) (h17 : i ≠ 17) :
    cksum (b.set i x) ≠ cksum b := by
  intro heq
  have hsum := wordTotal_congr_except (b := b) (b' := b.set i x) hi
    fun j hj => covered_congr fun _ _ => num_set_ne hj x
  rw [covered_of_ne h16 h17, covered_of_ne h16 h17, num_set_self (hi.trans_eq hb.symm)] at hsum
  have hmod : wordTotal (b.set i x) % 65535 = wordTotal b % 65535 := by
    rw [← closedForm_mod, ← toNat_cksum (List.length_set.trans hb), heq, toNat_cksum hb, closedForm_mod]
  have hne : x.toNat ≠ num b i := mt BitVec.eq_of_toNat_eq hx
  have hold := num_lt b i
  have hnew := x.isLt
  obtain heven | hodd := Nat.mod_two_eq_zero_or_one i
  · rw [heven] at hsum
    omega
  · rw [hodd] at hsum
    omega

theorem be16_set_ne {j : Nat} (h : j ≠ i) (h' : j + 1 ≠ i) (x : Byte) : be16 (b.set i x) j = be16 b j := by
  rw [← BitVec.toNat_inj, toNat_be16, toNat_be16, num16, num_set_ne h, num_set_ne h', num16]

theorem be16_set_field_ne (hb : b.length = 576) (hx : x ≠ b.getD i 0) (hi : i = 16 ∨ i = 17) :
    be16 (b.set i x) 16 ≠ be16 b 16 := by
  have hne : x.toNat ≠ num b i := mt BitVec.eq_of_toNat_eq hx
  rw [Ne, ← BitVec.toNat_inj, toNat_be16, toNat_be16]
  simp only [num16, Nat.reduceAdd]
  obtain rfl | rfl := hi
  · rw [num_set_self (by omega), num_set_ne (by decide)]
    omega
  · rw [num_set_ne (by decide), num_set_self (by omega)]
    omega

end

/-- Settles O23: a covered byte moves the recomputed checksum alone, a byte of the field the embedded one alone. -/
theorem singleByteChangeIsDetected : Obligations.SingleByteChangeIsDetected := by
  intro b i x hb hi hx
  refine ⟨cksum_set_covered_ne hb hi hx, fun hverify => ?_⟩
  have hold : cksum b = be16 b 16 := beq_iff_eq.mp hverify
  rw [verify, beq_eq_false_iff_ne]
  by_cases hfield : i = 16 ∨ i = 17
  · rw [cksum_set_field hb hfield, hold]
    exact (be16_set_field_ne hb hx hfield).symm
  · obtain ⟨h16, h17⟩ := not_or.mp hfield
    rw [be16_set_ne (Ne.symm h16) (Ne.symm h17), ← hold]
    exact cksum_set_covered_ne hb hi hx h16 h17

/-! ## CK_COMPUTE (R211, R212) -/

theorem length_ckBytes (s : State) : s.ckBytes.length = 576 := State.length_readBytes ..

theorem toNat_cksum_ckBytes (s : State) : (cksum s.ckBytes).toNat = closedForm (wordTotal (s.readBytes .ckBuf 0 576)) :=
  toNat_cksum (length_ckBytes s)

/-- Two bytes written over the field stand outside every covered byte. -/
theorem cksum_ckBytes_writeBytes_field (s : State) (x y : Byte) :
    cksum (s.writeBytes .ckBuf 16 [x, y]).ckBytes = cksum s.ckBytes := by
  refine cksum_congr (length_ckBytes _) (length_ckBytes _) fun j hj => covered_congr fun h16 h17 => ?_
  rw [num, num, State.ckBytes, State.ckBytes, getD_readBytes _ _ _ hj, getD_readBytes _ _ _ hj,
    State.readByte_writeBytes, if_neg]
  rintro ⟨-, hle, hlt⟩
  simp only [List.length_cons, List.length_nil] at hlt
  omega

/-- Settles O25: the checksum of CK_BUF, which does not cover bytes 16 and 17. -/
theorem ckComputeResult : Obligations.CkComputeResult := by
  refine fun s => ⟨cksum s.ckBytes, rfl, toNat_cksum_ckBytes s, fun x y => ?_⟩
  rw [← cksum_ckBytes_writeBytes_field s x y]
  rfl

/-! ## CK_VERIFY (R221) -/

theorem exec_ckVerify_of_len_ne {s : State} (h : s.ck.len ≠ 576) :
    exec .ckVerify s = .next { s with ck := { s.ck with malformed := true, verifyOk := false } } :=
  if_pos h

theorem exec_ckVerify_of_len {s : State} (h : s.ck.len = 576) :
    exec .ckVerify s = .next { s with
      ck := { s.ck with result := cksum s.ckBytes, verifyOk := verify s.ckBytes, malformed := false } } :=
  if_neg (not_not.mpr h)

/-- VERIFY compares the two checksums as numbers (R207). -/
theorem verify_eq_decide (b : Datagram) : verify b = decide ((cksum b).toNat = num16 b 16) := by
  rw [Bool.eq_iff_iff, verify, beq_iff_eq, decide_eq_true_iff, ← toNat_be16, BitVec.toNat_inj]

/-- Settles O26: one clause for each value of the length test. -/
theorem ckVerifyResult : Obligations.CkVerifyResult := by
  refine fun s => ⟨exec_ckVerify_of_len_ne, fun h => ⟨cksum s.ckBytes, toNat_cksum_ckBytes s, ?_⟩⟩
  rw [exec_ckVerify_of_len h, verify_eq_decide]
  rfl

/-! ## SEG_DECODE (R231) -/

theorem exec_segDecode_of_len_ne {s : State} (h : s.ck.len ≠ 576) :
    exec .segDecode s = .next { s with ck := { s.ck with malformed := true, lenBad := false } } :=
  if_pos h

theorem exec_segDecode_of_len {s : State} (h : s.ck.len = 576) :
    exec .segDecode s = .next { s with ck := s.ck.takeFields (decodeSeg s.ckBytes) } :=
  if_neg (not_not.mpr h)

theorem toNat_be32 (b : Datagram) (i : Nat) : (be32 b i).toNat = num32 b i := by
  rw [be32, toNat_append_add, toNat_append_add, toNat_append_add]
  simp only [byteAt, num32, num16, num, Nat.add_assoc, Nat.reduceAdd]
  omega

/-- SEG_PORTS as DECODE leaves it: the destination port above the source port (R62). -/
theorem toNat_decodedPorts (b : Datagram) :
    ((decodeSeg b).destPort ++ (decodeSeg b).sourcePort : Word).toNat = 65536 * num16 b 2 + num16 b 0 := by
  rw [toNat_append_add, decodeSeg, toNat_be16, toNat_be16, Nat.mul_comm]
  rfl

/-- SEG_FLAGS as DECODE leaves it: headerSize, the ackFlag byte, the finFlag byte (R62). -/
theorem toNat_decodedFlags (b : Datagram) :
    ((decodeSeg b).headerSize ++ (decodeSeg b).ackByte ++ (decodeSeg b).finByte : Word).toNat =
      65536 * num16 b 12 + 256 * num b 15 + num b 14 := by
  simp only [toNat_append_add, decodeSeg, toNat_be16, byteAt, num]
  omega

theorem toNat_payloadLength_decodeSeg (b : Datagram) : (decodeSeg b).payloadLength.toNat = trueLength b := by
  rw [SegFields.payloadLength, BitVec.toNat_sub, decodeSeg, toNat_be32, toNat_be32, trueLength]

/-- Settles O27: the registers take the decoded fields, each a number of the buffer. -/
theorem segDecodeResult : Obligations.SegDecodeResult :=
  fun s => ⟨exec_segDecode_of_len_ne, fun h => ⟨_, _, _, _, _, _, exec_segDecode_of_len h, toNat_decodedPorts s.ckBytes,
    toNat_be32 s.ckBytes 4, toNat_be32 s.ckBytes 8, toNat_decodedFlags s.ckBytes, toNat_be16 s.ckBytes 16,
    toNat_payloadLength_decodeSeg s.ckBytes⟩⟩

/-! ## The round trip (R242) -/

/-- The length that a wire segment's two numbers give is the one DECODE computes (R158). -/
theorem trueLength_of_wireSegment {d : Datagram} {src dst : Nat} {seq ack : Word} {fin : Bool} {len : Nat}
    {byteOf : Nat → Byte} {pad : Byte} (h : WireSegment d src dst seq.toNat ack.toNat fin len byteOf pad) :
    trueLength d = (ack - seq).toNat := by
  rw [trueLength, h.sequence, h.acknowledge, BitVec.toNat_sub]

/-- SEG_FLAGS of a wire segment: headerSize 20, ackFlag 1, and the fin flag (R155, R242). -/
theorem flags_of_wireSegment {d : Datagram} {src dst seq ack n : Nat} {len : Nat} {byteOf : Nat → Byte} {pad : Byte}
    (h : WireSegment d src dst seq ack (decide (n ≠ 0)) len byteOf pad) :
    65536 * num16 d 12 + 256 * num d 15 + num d 14 = (if n = 0 then 0x00140100#32 else 0x00140101#32).toNat := by
  rw [h.headerSize, h.ackByte, h.finByte]
  by_cases hn : n = 0
  · rw [hn]
    rfl
  · rw [decide_eq_true hn, if_neg hn]
    rfl

/-- Settles O29: SEG_ENCODE leaves a wire segment in CK_BUF (O28), whose numbers SEG_DECODE puts in the registers (O27) and whose
embedded checksum CK_VERIFY finds (O26); the last two change no byte. -/
theorem encodeDecodeVerifyRoundTrip : Obligations.EncodeDecodeVerifyRoundTrip := by
  intro s hlen
  obtain ⟨t, c, hencode, ht, -, hwire, -⟩ := segEncodeBuildsInPlace s hlen
  have htlen : t.ck.len = 576 := by rw [ht]
  obtain ⟨ports, seq, ack, flags, len, c', hdecode, hports, hseq, hack, hflags, -, hseglen⟩ :=
    (segDecodeResult t).2 htlen
  obtain ⟨c'', hc, hverify⟩ := (ckVerifyResult { t with
    ck := { t.ck with
      segPorts := ports, segSeq := seq, segAck := ack, segFlags := flags, segCksum := c', segLen := len,
      lenBad := decide (len.toNat > 556), malformed := false } }).2 htlen
  have hlenEq : len = s.ck.segAck - s.ck.segSeq :=
    BitVec.eq_of_toNat_eq (hseglen.trans (trueLength_of_wireSegment hwire))
  refine ⟨_, _, _, hencode, hdecode, hverify, ?_, BitVec.eq_of_toNat_eq (hseq.trans hwire.sequence),
    BitVec.eq_of_toNat_eq (hack.trans hwire.acknowledge),
    BitVec.eq_of_toNat_eq (hflags.trans (flags_of_wireSegment hwire)), hlenEq, ?_, rfl, ?_, rfl, fun k hk => ?_⟩
  · apply BitVec.eq_of_toNat_eq
    rw [hports, hwire.source, hwire.dest]
    omega
  · exact decide_eq_false (by rw [hlenEq]; omega)
  · exact decide_eq_true (hc.trans hwire.checksum.symm)
  · have hbody := hwire.body k (by omega)
    rw [getD_readBytes t .ckBuf 0 (by omega), if_pos hk, Nat.zero_add] at hbody
    exact hbody

end Sys2Proof.Machine
end

section
/-! PROOFS. The RTT estimator (spec/41_rtt.md): its two commands, the update in exact integers, and what a constant sample does to
the estimates under the two policies. -/

namespace Sys2Proof.Machine

open Sys2Proof.Safety

/-! ## The two commands outside SENDING (R260, R261) -/

/-- What RTT_SAMPLE leaves outside SENDING: ONSAMPLE of RTT_SAMPLE_IN (R261). -/
def State.sampled (s : State) : State := s.onSample s.rtt.sampleIn

theorem exec_rttSample_of_not_sending {s : State} (h : s.tx.state ≠ .sending) : exec .rttSample s = .next s.sampled :=
  if_neg h

/-- Neither the sender's state nor RTT_SAMPLE_IN is changed by a sample, so repeated commands repeat the update. -/
theorem repeatCommand_rttSample {s : State} (h : s.tx.state ≠ .sending) (k : Nat) :
    repeatCommand .rttSample k s = .next (State.sampled^[k] s) := by
  induction k generalizing s with
  | zero => rfl
  | succ k ih =>
    rw [repeatCommand, exec_rttSample_of_not_sending h]
    exact ih (s := s.sampled) h

/-- Settles O30: one clause for each branch of RTT_INIT. -/
theorem rttInitResult : Obligations.RttInitResult :=
  ⟨decode_encode .rttInit, fun _ => ⟨fun h => if_pos h, fun h => if_neg h⟩⟩

/-! ## The update in exact integers (R251 to R256) -/

/-- A sample in Q24.8 fits 32 bits, whatever RTT_SAMPLE_IN holds (R251). -/
theorem sampleQ_lt (n : Word) : sampleQ n < 2 ^ 32 := by
  unfold sampleQ
  omega

theorem sampleQ_of_lt {n : Word} (h : n.toNat < 2 ^ 24) : sampleQ n = 256 * n.toNat := by
  unfold sampleQ
  omega

/-- The one-sided differences add up to the distance, since one of them is 0 (R13). -/
theorem absDiff_eq_add (a b : Nat) : absDiff a b = (a - b) + (b - a) := by
  unfold absDiff
  split_ifs <;> omega

/-- The new deviation averages four numbers of 32 bits, so it does not wrap (R253, R258). -/
theorem nextDev_lt {dev est q : Nat} (hdev : dev < 2 ^ 32) (hest : est < 2 ^ 32) (hq : q < 2 ^ 32) :
    nextDev dev est q < 2 ^ 32 := by
  rw [nextDev, absDiff_eq_add]
  omega

theorem nextEst_eq_ite (b c : Bool) (est q : Nat) :
    nextEst (b && c) est q = if b = true ∧ c = true then q else (7 * est + q) / 8 := by
  cases b <;> cases c <;> rfl

/-- The new mean is the sample or averages eight numbers of 32 bits, so it does not wrap (R254, R258). -/
theorem nextEst_lt {b : Bool} {est q : Nat} (hest : est < 2 ^ 32) (hq : q < 2 ^ 32) : nextEst b est q < 2 ^ 32 := by
  cases b
  · show (7 * est + q) / 8 < 2 ^ 32
    omega
  · exact hq

section
variable (r : RttUnit) (firstOvr : Bool) (n : Word)

theorem toNat_dev_onSample : (r.onSample firstOvr n).dev.toNat = nextDev r.dev.toNat r.est.toNat (sampleQ n) :=
  toNat_word (nextDev_lt r.dev.isLt r.est.isLt (sampleQ_lt n))

theorem toNat_est_onSample :
    (r.onSample firstOvr n).est.toNat = nextEst (firstOvr && r.first) r.est.toNat (sampleQ n) :=
  toNat_word (nextEst_lt r.est.isLt (sampleQ_lt n))

/-- TIMEOUT is computed from the two new values and saturates (R255). -/
theorem toNat_timeout_onSample : (r.onSample firstOvr n).timeout.toNat =
    min ((r.onSample firstOvr n).est.toNat + 4 * (r.onSample firstOvr n).dev.toNat) 0xFFFFFFFF := by
  rw [toNat_est_onSample, toNat_dev_onSample]
  exact toNat_sat32 _

end

/-- Settles O31: the registers take the exact numbers, since the deviation and the mean fit and the timeout is capped. -/
theorem rttSampleIsExact : Obligations.RttSampleIsExact := by
  intro s hs
  refine ⟨s.sampled.rtt.est, s.sampled.rtt.dev, s.sampled.rtt.timeout, sampleQ s.rtt.sampleIn,
    exec_rttSample_of_not_sending hs, Nat.mul_comm _ _, ?_, ?_, toNat_timeout_onSample s.rtt _ _⟩
  · rw [Nat.add_assoc, ← absDiff_eq_add]
    exact toNat_dev_onSample s.rtt _ _
  · rw [← nextEst_eq_ite]
    exact toNat_est_onSample s.rtt _ _

/-! ## The blend policy (R259) -/

/-- Without the override the mean moves by an eighth of its distance to the sample (R254). -/
theorem toNat_est_sampled_of_blend {s : State} (h : ¬ (s.cfg.firstOvr = true ∧ s.rtt.first = true))
    (hn : s.rtt.sampleIn.toNat < 2 ^ 24) :
    s.sampled.rtt.est.toNat = (7 * s.rtt.est.toNat + 256 * s.rtt.sampleIn.toNat) / 8 := by
  rw [State.sampled, State.onSample_rtt, toNat_est_onSample, nextEst_eq_ite, if_neg h, sampleQ_of_lt hn]

/-- Settles O33: with the mean written as the sample plus or minus d, the new mean is the sample plus or minus 7d/8, and the
division rounds the mean down. -/
theorem blendPolicyDistance : Obligations.BlendPolicyDistance := by
  intro s d hs hblend hn
  refine ⟨s.sampled, exec_rttSample_of_not_sending hs, fun habove => ?_, fun hbelow => ?_⟩ <;>
    rw [toNat_est_sampled_of_blend hblend hn] <;> omega

/-! ## The override policy under a constant sample (R259) -/

/-- The estimator has reached the sample in RTT_SAMPLE_IN: the mean is the sample, and TIMEOUT is the one of R255. -/
structure Tracks (s : State) : Prop where
  sample_lt : s.rtt.sampleIn.toNat < 2 ^ 24
  est_eq : s.rtt.est.toNat = 256 * s.rtt.sampleIn.toNat
  timeout_eq : s.rtt.timeout.toNat = min (s.rtt.est.toNat + 4 * s.rtt.dev.toNat) 0xFFFFFFFF

/-- The first sample under the override policy is taken over as it is. -/
theorem tracks_sampled_of_override {s : State} (hovr : s.cfg.firstOvr = true) (hfirst : s.rtt.first = true)
    (hn : s.rtt.sampleIn.toNat < 2 ^ 24) : Tracks s.sampled where
  sample_lt := hn
  est_eq := by
    rw [State.sampled, State.onSample_rtt, toNat_est_onSample, nextEst_eq_ite, if_pos ⟨hovr, hfirst⟩]
    exact sampleQ_of_lt hn
  timeout_eq := toNat_timeout_onSample s.rtt _ _

/-- A mean that equals the sample stays there, whatever the policy: (7 S + S) / 8 = S. -/
theorem Tracks.sampled {s : State} (h : Tracks s) : Tracks s.sampled where
  sample_lt := h.sample_lt
  est_eq := by
    have hq := sampleQ_of_lt h.sample_lt
    have hest := h.est_eq
    rw [State.sampled, State.onSample_rtt, toNat_est_onSample, nextEst_eq_ite]
    show _ = 256 * s.rtt.sampleIn.toNat
    split_ifs <;> omega
  timeout_eq := toNat_timeout_onSample s.rtt _ _

/-- With no distance left to the sample the deviation only decays (R252, R253). -/
theorem Tracks.toNat_dev_sampled {s : State} (h : Tracks s) : s.sampled.rtt.dev.toNat = 3 * s.rtt.dev.toNat / 4 := by
  rw [State.sampled, State.onSample_rtt, toNat_dev_onSample, nextDev, absDiff_eq_add, sampleQ_of_lt h.sample_lt, h.est_eq,
    Nat.sub_self, Nat.add_zero]

theorem Tracks.iterate {s : State} (h : Tracks s) (k : Nat) : Tracks (State.sampled^[k] s) := by
  induction k generalizing s with
  | zero => exact h
  | succ k ih => exact ih h.sampled

theorem Tracks.toNat_dev_iterate_succ_lt {s : State} (h : Tracks s) (k : Nat)
    (hpos : 0 < (State.sampled^[k] s).rtt.dev.toNat) :
    (State.sampled^[k + 1] s).rtt.dev.toNat < (State.sampled^[k] s).rtt.dev.toNat := by
  rw [Function.iterate_succ_apply', (h.iterate k).toNat_dev_sampled]
  omega

/-- Each sample takes at least 1 off a deviation that is not 0. -/
theorem Tracks.toNat_dev_iterate_le {s : State} (h : Tracks s) (k : Nat) :
    (State.sampled^[k] s).rtt.dev.toNat ≤ s.rtt.dev.toNat - k := by
  induction k generalizing s with
  | zero => exact Nat.le_refl _
  | succ k ih =>
    have hdecay := h.toNat_dev_sampled
    refine (ih h.sampled).trans ?_
    omega

theorem Tracks.timeout_eq_est {s : State} (h : Tracks s) (hdev : s.rtt.dev = 0) : s.rtt.timeout = s.rtt.est := by
  apply BitVec.eq_of_toNat_eq
  have hest := s.rtt.est.isLt
  rw [h.timeout_eq, hdev]
  exact Nat.min_eq_left (Nat.le_of_lt_succ hest)

theorem sampleIn_iterate_sampled (s : State) (k : Nat) : (State.sampled^[k] s).rtt.sampleIn = s.rtt.sampleIn := by
  induction k generalizing s with
  | zero => rfl
  | succ k ih => exact ih s.sampled

/-- Settles O32: the first sample makes the estimator track it, every further one keeps that and lowers the deviation, which is
therefore 0 after as many samples as its first value. -/
theorem overridePolicyConverges : Obligations.OverridePolicyConverges := by
  intro s hs hovr hfirst hn
  have htracks : Tracks s.sampled := tracks_sampled_of_override hovr hfirst hn
  have hest (k : Nat) : (State.sampled^[k] s.sampled).rtt.est.toNat = 256 * s.rtt.sampleIn.toNat :=
    (htracks.iterate k).est_eq.trans (congrArg (256 * BitVec.toNat ·) (sampleIn_iterate_sampled s.sampled k))
  constructor
  · intro k
    exact ⟨_, _, repeatCommand_rttSample hs _, repeatCommand_rttSample hs _, hest k, htracks.toNat_dev_iterate_succ_lt k⟩
  · refine ⟨s.sampled.rtt.dev.toNat + 1, fun k hk => ?_⟩
    obtain ⟨j, rfl⟩ : ∃ j, k = j + 1 := ⟨k - 1, by omega⟩
    have hdev : (State.sampled^[j] s.sampled).rtt.dev = 0 := by
      have hle := htracks.toNat_dev_iterate_le j
      exact BitVec.eq_of_toNat_eq (show _ = 0 by omega)
    exact ⟨_, repeatCommand_rttSample hs _, hest j, hdev, (htracks.iterate j).timeout_eq_est hdev⟩

end Sys2Proof.Machine
end

section
/-! PROOFS. The start of a session (spec/42_sender.md): the segments of the stream as wire segments, and TX_START. -/

namespace Sys2Proof.Machine

open Sys2Proof.Safety

/-- Segment k is the wire segment of its numbers in the segmentation, with its bytes of TX_MEM (R303, R310). -/
theorem wireSegment_segment (s : State) {k : Nat} (hack : segAck s.cfg.txLen.toNat k < 2 ^ 32) :
    WireSegment (s.segment k) (s.cfg.ports.toNat % 65536) (s.cfg.ports.toNat / 65536) (segSeq k)
      (segAck s.cfg.txLen.toNat k) (segFin s.tx.nseg.toNat k) (segLen s.cfg.txLen.toNat k)
      (fun j => s.readByte .txMem (segSeq k + j)) s.cfg.padByte := by
  obtain ⟨hsrc, hdst⟩ := toNat_ports s.cfg.ports
  have hseq : segSeq k < 2 ^ 32 := Nat.lt_of_le_of_lt (Nat.le_add_right _ _) hack
  have hp : (s.readBytes .txMem (segSeq k) (segLen s.cfg.txLen.toNat k)).length = segLen s.cfg.txLen.toNat k :=
    State.length_readBytes ..
  have hbuilt : WireSegment (s.segment k) _ _ _ _ _ _ _ _ := wireSegment_buildSeg (hp.trans_le (segLen_le _ _))
  rw [hsrc, hdst, toNat_word hseq, toNat_word hack, hp] at hbuilt
  exact wireSegment_congr_byteOf hbuilt (fun j hj => getD_readBytes s .txMem (segSeq k) hj)

/-! ## Segment 0 (R303) -/

theorem segLen_zero (len : Nat) : segLen len 0 = min 556 len := rfl

theorem segAck_zero (len : Nat) : segAck len 0 = min 556 len := Nat.zero_add _

theorem segCount_eq (len : Nat) : segCount len = max 1 ((len + 555) / 556) := rfl

/-- The first segment is the last of an input that fits one segment. -/
theorem segFin_segCount_zero (len : Nat) : segFin (segCount len) 0 = decide (len ≤ 556) := by
  rw [Bool.eq_iff_iff, segFin, beq_iff_eq, decide_eq_true_iff, segCount_eq]
  omega

/-! ## TX_START (R300, R302) -/

/-- The state in which TX_START transmits segment 0: the estimator initialised, the statistics cleared, TX_NSEG and START_TIME
set. -/
def State.prepared (s : State) : State :=
  { s.clearStats.rttInitState with
    tx := { s.clearStats.tx with nseg := BitVec.ofNat 32 (segCount s.cfg.txLen.toNat), startTime := s.now } }

theorem exec_txStart_of_fits {s : State} (h : s.tx.state = .building) (hl : s.cfg.txLen.toNat ≤ s.build.txMemSize)
    (hw : s.cfg.window = 1) : exec .txStart s = .next (s.prepared.transmit 0) := by
  obtain ⟨hn, -⟩ | ⟨-, hlt, -⟩ | ⟨-, -, hn, -⟩ | ⟨-, -, -, e⟩ := execTxStart_cases s
  · exact absurd h hn
  · omega
  · exact absurd hw hn
  · exact e

/-- The sender's registers after the first transmission: one segment sent, whose bytes are counted without saturation. -/
theorem tx_transmit_prepared (s : State) : (s.prepared.transmit 0).tx =
    { state := .sending, cause := s.tx.cause, nseg := BitVec.ofNat 32 (max 1 ((s.cfg.txLen.toNat + 555) / 556)),
      cur := 0, seq := 0, ack := BitVec.ofNat 32 (min 556 s.cfg.txLen.toNat), segSent := 1,
      bytesSent := BitVec.ofNat 32 (min 556 s.cfg.txLen.toNat), retxCnt := 0, retryCur := 0, elapsed := 0,
      sendTime := s.now, startTime := s.now, xferTime := 0 } := by
  have hbytes : sat32 (s.prepared.tx.bytesSent.toNat + segLen s.prepared.cfg.txLen.toNat 0) =
      BitVec.ofNat 32 (min 556 s.cfg.txLen.toNat) := by
    show sat32 (0 + min 556 s.cfg.txLen.toNat) = _
    rw [Nat.zero_add, sat32, Nat.min_eq_left (by omega)]
  rw [State.transmit_tx, TxUnit.transmitted, hbytes, segAck_zero]
  rfl

theorem wireSegment_prepared {s : State} (hlen : s.cfg.txLen.toNat ≤ 65536) :
    WireSegment (s.prepared.segment 0) (s.cfg.ports.toNat % 65536) (s.cfg.ports.toNat / 65536) 0
      (min 556 s.cfg.txLen.toNat) (decide (s.cfg.txLen.toNat ≤ 556)) (min 556 s.cfg.txLen.toNat)
      (fun k => s.readByte .txMem k) s.cfg.padByte := by
  have hnseg : s.prepared.tx.nseg.toNat = segCount s.cfg.txLen.toNat :=
    toNat_word (by have hcount := segCount_le hlen; omega)
  have hwire := wireSegment_segment s.prepared (k := 0) (by rw [segAck_zero]; omega)
  rw [hnseg, segAck_zero, segLen_zero] at hwire
  rw [← segFin_segCount_zero]
  exact wireSegment_congr_byteOf hwire (fun k _ => congrArg (s.readByte .txMem) (Nat.zero_add k))

/-- Settles O35: the start is the transmission of segment 0 from the prepared state, whose memories are those of s. -/
theorem txStartSendsTheFirstSegment : Obligations.TxStartSendsTheFirstSegment := by
  intro s hb hs hl hw
  refine ⟨s.prepared.transmit 0, s.prepared.segment 0, exec_txStart_of_fits hs hl hw, ?_, State.retained_transmit s.prepared 0,
    wireSegment_prepared (txLen_le hb hl), fun sp a hout => ?_⟩
  · rw [← tx_transmit_prepared]
    rfl
  · exact (State.readByte_transmit s.prepared 0 sp a hout).trans (State.readByte_congr rfl rfl a)

end Sys2Proof.Machine
end

section
/-! PROOFS. The sender's segmentation, its commands, the TICK and the tokens (spec/42_sender.md). -/

namespace Sys2Proof.Machine

open Sys2Proof.Safety

/-! ## Segmentation (R303, R304) -/

/-- A segment that is not the last ends where the next one starts. -/
theorem segAck_eq_segSeq_succ {len k : Nat} (h : k + 1 < segCount len) : segAck len k = segSeq (k + 1) := by
  rw [segAck, segLen_of_lt h]
  rfl

/-- The last segment carries what the full segments before it leave, which fits one segment. -/
theorem segLen_last (len : Nat) : segLen len (segCount len - 1) = len - 556 * (segCount len - 1) := by
  have hcount := segCount_eq len
  simp only [segLen, segSeq, Config.mss_eq]
  omega

theorem segAck_last (len : Nat) : segAck len (segCount len - 1) = len := by
  have hcount := segCount_eq len
  rw [segAck, segLen_last, segSeq, Config.mss_eq]
  omega

/-- The last segment of an input that is not empty carries a byte. -/
theorem one_le_segLen_last {len : Nat} (h : 0 < len) : 1 ≤ segLen len (segCount len - 1) := by
  have hcount := segCount_eq len
  rw [segLen_last]
  omega

theorem segFin_iff (n k : Nat) : segFin n k = true ↔ k + 1 = n := beq_iff_eq

/-- No sequence number passes its acknowledgment number, and that one stays inside the input. -/
theorem segSeq_le_segAck (len k : Nat) : segSeq k ≤ segAck len k := Nat.le_add_right _ _

theorem segAck_sub_segSeq (len k : Nat) : segAck len k - segSeq k = segLen len k := Nat.add_sub_cancel_left ..

theorem segAck_le {len k : Nat} (h : k < segCount len) : segAck len k ≤ len := by
  rw [segAck_of_lt h]
  exact Nat.min_le_right _ _

/-- Settles O34: the bounds follow from those of the count, and the source's example is evaluated. -/
theorem segmentationCoversTheStream : Obligations.SegmentationCoversTheStream := by
  refine ⟨fun len hlen => ?_, by decide⟩
  have hpos := one_le_segCount len
  refine ⟨hpos, segCount_le hlen, fun k hk => ⟨segAck_eq_segSeq_succ hk, segLen_of_lt hk⟩, segAck_last len, segLen_last len,
    fun h => ⟨one_le_segLen_last h, segLen_le len _⟩, fun k hk => ?_⟩
  have hack := segAck_le hk
  have hseq := segSeq_le_segAck len k
  refine ⟨?_, by omega, by omega⟩
  rw [segFin_iff]
  omega

/-! ## The commands (R301, R330) -/

theorem exec_txStart_of_too_long {s : State} (h : s.tx.state = .building) (hl : s.build.txMemSize < s.cfg.txLen.toNat) :
    exec .txStart s = .next (s.clearStats.raiseTx .input) := by
  obtain ⟨hn, -⟩ | ⟨-, -, e⟩ | ⟨-, hle, -⟩ | ⟨-, hle, -⟩ := execTxStart_cases s
  · exact absurd h hn
  · exact e
  · omega
  · omega

theorem exec_txStart_of_window {s : State} (h : s.tx.state = .building) (hl : s.cfg.txLen.toNat ≤ s.build.txMemSize)
    (hw : s.cfg.window ≠ 1) : exec .txStart s = .next (s.clearStats.raiseTx .window) := by
  obtain ⟨hn, -⟩ | ⟨-, hlt, -⟩ | ⟨-, -, -, e⟩ | ⟨-, -, hw', -⟩ := execTxStart_cases s
  · exact absurd h hn
  · omega
  · exact e
  · exact absurd hw' hw

/-- TX_STAT of a faulted sender: the code of the cause above the code of FAILED (R40, R461). -/
theorem txStat_raiseTx (s : State) (c : TxCause) :
    ((s.raiseTx c).regValue .txStat).extractLsb' 4 4 = c.code ∧ ((s.raiseTx c).regValue .txStat).extractLsb' 0 2 = 3#2 := by
  have hword : (s.raiseTx c).regValue .txStat = 0#23 ++ bit s.rtt.first ++ c.code ++ 0#2 ++ 3#2 := rfl
  rw [hword]
  cases s.rtt.first <;> cases c <;> decide

/-- Settles O36: the two faulting branches of TX_START, the length before the window. -/
theorem txStartFaults : Obligations.TxStartFaults := by
  intro s hs hfault
  by_cases hl : s.cfg.txLen.toNat > s.build.txMemSize
  · refine ⟨s.clearStats.raiseTx .input, exec_txStart_of_too_long hs hl, ?_, ?_⟩ <;> simp only [if_pos hl]
    · rfl
    · exact txStat_raiseTx _ .input
  · have hw : s.cfg.window ≠ 1 := hfault.resolve_left hl
    refine ⟨s.clearStats.raiseTx .window, exec_txStart_of_window hs (Nat.not_lt.mp hl) hw, ?_, ?_⟩ <;>
      simp only [if_neg hl]
    · rfl
    · exact txStat_raiseTx _ .window

/-- Settles O37: one clause for each branch of TX_CLEAR. -/
theorem txClearReturnsToBuilding : Obligations.TxClearReturnsToBuilding :=
  ⟨decode_encode .txClear, fun _ => ⟨fun h => if_pos h, fun h => if_neg h⟩⟩

/-! ## The TICK (R320 to R324) -/

theorem onTick_of_not_sending {s : State} (h : s.tx.state ≠ .sending) : onTick s = s.advanceNow := if_neg h

/-- The timeout test of a TICK, after ELAPSED has advanced (R320). -/
theorem timedOut_tick_iff (s : State) :
    s.advanceNow.advanceElapsed.timedOut = true ↔ s.rtt.timeout.toNat ≤ (sat32 (s.tx.elapsed.toNat + 1)).toNat * 256 :=
  State.timedOut_iff _

theorem onTick_wait {s : State} (h : s.tx.state = .sending)
    (ht : (sat32 (s.tx.elapsed.toNat + 1)).toNat * 256 < s.rtt.timeout.toNat) : onTick s = s.advanceNow.advanceElapsed := by
  have hn : ¬ s.advanceNow.advanceElapsed.timedOut = true := fun hto => Nat.not_lt.mpr ((timedOut_tick_iff s).mp hto) ht
  obtain ⟨-, e⟩ | ⟨hto, -, -⟩ | ⟨hto, -, -⟩ := onTick_cases s h
  · exact e
  · exact absurd hto hn
  · exact absurd hto hn

theorem onTick_giveUp {s : State} (h : s.tx.state = .sending)
    (ht : s.rtt.timeout.toNat ≤ (sat32 (s.tx.elapsed.toNat + 1)).toNat * 256)
    (hr : s.cfg.maxRetry ≠ 0 ∧ s.cfg.maxRetry.toNat ≤ s.tx.retryCur.toNat) :
    onTick s = s.advanceNow.advanceElapsed.raiseTx .giveUp := by
  have hto := (timedOut_tick_iff s).mpr ht
  have hused := (State.retriesUsedUp_iff s).mpr hr
  obtain ⟨hno, -⟩ | ⟨-, -, e⟩ | ⟨-, hno, -⟩ := onTick_cases s h
  · rw [hto] at hno
    cases hno
  · exact e
  · rw [hused] at hno
    cases hno

theorem onTick_retransmit {s : State} (h : s.tx.state = .sending)
    (ht : s.rtt.timeout.toNat ≤ (sat32 (s.tx.elapsed.toNat + 1)).toNat * 256)
    (hr : s.cfg.maxRetry = 0 ∨ s.tx.retryCur.toNat < s.cfg.maxRetry.toNat) :
    onTick s = s.advanceNow.advanceElapsed.retransmit := by
  have hto := (timedOut_tick_iff s).mpr ht
  have hleft : ¬ s.retriesUsedUp = true := by
    rw [State.retriesUsedUp_iff]
    rintro ⟨hne, hle⟩
    exact hr.elim hne (Nat.not_lt.mpr hle)
  obtain ⟨hno, -⟩ | ⟨-, hused, -⟩ | ⟨-, -, e⟩ := onTick_cases s h
  · rw [hto] at hno
    cases hno
  · exact absurd hused hleft
  · exact e

/-- Settles O38: outside SENDING only NOW advances; in SENDING one clause for each outcome of the timeout. -/
theorem tickInEveryState : Obligations.TickInEveryState := by
  intro s
  refine ⟨s.now + 1, sat32 (s.tx.elapsed.toNat + 1), sat32 (s.tx.retxCnt.toNat + 1), sat32 (s.tx.retryCur.toNat + 1),
    BitVec.toNat_add _ _, toNat_sat32 _, toNat_sat32 _, toNat_sat32 _, fun h => ?_, fun h ht => ?_, fun h ht hne hle => ?_,
    fun h ht hr => ?_⟩
  · rw [runEvent, onTick_of_not_sending h, State.advanceNow]
  · rw [runEvent, onTick_wait h ht]
    rfl
  · rw [runEvent, onTick_giveUp h ht ⟨hne, hle⟩]
    rfl
  · rw [runEvent, onTick_retransmit h ht hr]
    rfl

theorem step_tick {s : State} {rest : List Event} (h : s.inputs = .tick :: rest) :
    step s = .next (onTick { s with inputs := rest }) := step_cons h

/-- The state j TICKs into a wait that began in s, with rest still to be presented. -/
def State.waited (s : State) (j : Nat) (rest : List Event) : State :=
  { s with
    inputs := rest
    now := s.now + BitVec.ofNat 64 j
    tx := { s.tx with elapsed := BitVec.ofNat 32 j } }

theorem waited_zero {s : State} (h : s.tx.elapsed = 0) : s.waited 0 s.inputs = s := by
  have htx : { s.tx with elapsed := BitVec.ofNat 32 0 } = s.tx := by
    rw [show BitVec.ofNat 32 0 = s.tx.elapsed from h.symm]
  rw [State.waited, htx, BitVec.add_zero]

theorem toNat_elapsed_waited (s : State) {j : Nat} (h : j < 2 ^ 32) (rest : List Event) :
    (s.waited j rest).tx.elapsed.toNat = j := toNat_word h

/-- ELAPSED reaches j + 1 without saturation. -/
theorem sat32_succ_waited {s : State} {j : Nat} (h : j < 2 ^ 24) (rest : List Event) :
    sat32 ((s.waited j rest).tx.elapsed.toNat + 1) = BitVec.ofNat 32 (j + 1) := by
  rw [toNat_elapsed_waited s (by omega), sat32, Nat.min_eq_left (by omega)]

theorem timeoutTick_le (w : Word) : timeoutTick w ≤ 2 ^ 24 := by
  have := w.isLt
  rw [timeoutTick]
  omega

theorem one_le_timeoutTick (w : Word) : 1 ≤ timeoutTick w := Nat.le_max_left _ _

/-- The timeout is reached at tick K and not before (R323). -/
theorem timeoutTick_le_iff {w : Word} {j : Nat} (h : 1 ≤ j) : timeoutTick w ≤ j ↔ w.toNat ≤ j * 256 := by
  rw [timeoutTick]
  omega

/-- One TICK before the timeout. -/
theorem onTick_waited {s : State} (hs : s.tx.state = .sending) {j : Nat} (hj : j + 1 < timeoutTick s.rtt.timeout)
    (rest : List Event) : onTick (s.waited j rest) = s.waited (j + 1) rest := by
  have hmax := timeoutTick_le s.rtt.timeout
  have hsat := sat32_succ_waited (s := s) (j := j) (by omega) rest
  have hnow : s.now + BitVec.ofNat 64 j + 1 = s.now + BitVec.ofNat 64 (j + 1) := by
    rw [BitVec.add_assoc, BitVec.ofNat_add]
    rfl
  have hlt : (j + 1) * 256 < s.rtt.timeout.toNat :=
    Nat.lt_of_not_le (mt (timeoutTick_le_iff (Nat.le_add_left 1 j)).mpr (Nat.not_le.mpr hj))
  rw [onTick_wait (s := s.waited j rest) hs (by rw [hsat, toNat_word (by omega)]; exact hlt), State.advanceElapsed,
    State.advanceNow_tx, hsat, State.advanceNow, State.waited, State.waited, hnow]

/-- With only TICKs presented the sender waits, a TICK at a time, until tick K - 1. -/
theorem run_waited {s : State} {rest : List Event} (hs : s.tx.state = .sending) (h0 : s.tx.elapsed = 0)
    (hin : s.inputs = List.replicate (timeoutTick s.rtt.timeout) Event.tick ++ rest) (j : Nat)
    (hj : j < timeoutTick s.rtt.timeout) :
    Host.Core.run core j s =
      .next (s.waited j (List.replicate (timeoutTick s.rtt.timeout - j) Event.tick ++ rest)) := by
  induction j with
  | zero =>
    rw [Nat.sub_zero, ← hin, waited_zero h0]
    rfl
  | succ j ih =>
    have hreplicate : List.replicate (timeoutTick s.rtt.timeout - j) Event.tick =
        Event.tick :: List.replicate (timeoutTick s.rtt.timeout - (j + 1)) Event.tick := by
      rw [← List.replicate_succ]
      congr 1
      omega
    refine (run_succ core j s).trans ?_
    rw [ih (by omega), hreplicate]
    refine (step_tick (s := s.waited j _) rfl).trans (congrArg Host.Outcome.next ?_)
    exact onTick_waited hs hj _

/-- The TICK at the timeout sends the retained segment again (R323). -/
theorem onTick_waited_last {s : State} (hs : s.tx.state = .sending) {j : Nat} (hj : j + 1 = timeoutTick s.rtt.timeout)
    (hr : s.cfg.maxRetry = 0 ∨ s.tx.retryCur.toNat < s.cfg.maxRetry.toNat) (rest : List Event) :
    onTick (s.waited j rest) = (s.waited j rest).advanceNow.advanceElapsed.retransmit := by
  have hmax := timeoutTick_le s.rtt.timeout
  refine onTick_retransmit hs ?_ hr
  rw [sat32_succ_waited (by omega), toNat_word (by omega)]
  exact (timeoutTick_le_iff (Nat.le_add_left 1 j)).mp hj.ge

/-- Settles O39: run_waited up to tick K - 1, and the TICK after it. -/
theorem timeoutRetransmitsAtTickK : Obligations.TimeoutRetransmitsAtTickK := by
  intro s rest hs h0 hr hin
  refine ⟨fun j hj => ⟨_, run_waited hs h0 hin j hj, rfl, rfl⟩, ?_⟩
  obtain ⟨j, hj⟩ : ∃ j, timeoutTick s.rtt.timeout = j + 1 := ⟨_, (Nat.sub_add_cancel (one_le_timeoutTick _)).symm⟩
  have hlast : Host.Core.run core (timeoutTick s.rtt.timeout) s =
      .next (s.waited j rest).advanceNow.advanceElapsed.retransmit := by
    rw [hj]
    refine (run_succ core j s).trans ?_
    rw [run_waited hs h0 hin j (by omega), hj, Nat.add_sub_cancel_left]
    refine (step_tick (s := s.waited j _) rfl).trans (congrArg Host.Outcome.next ?_)
    exact onTick_waited_last hs hj.symm hr rest
  have hnow : s.now + BitVec.ofNat 64 (timeoutTick s.rtt.timeout) = s.now + BitVec.ofNat 64 j + 1 := by
    rw [hj, BitVec.add_assoc, BitVec.ofNat_add]
    rfl
  refine ⟨_, sat32 (s.tx.retxCnt.toNat + 1), sat32 (s.tx.retryCur.toNat + 1), hlast, toNat_sat32 _, toNat_sat32 _, ?_⟩
  rw [hnow]
  rfl

/-! ## Tokens (R311 to R313) -/

/-- A token outside SENDING, or one that ACK_CHECK rejects (R311). -/
theorem onArx_of_rejected {s : State} {tok : Word} (h : s.tx.state ≠ .sending ∨ (s.cfg.ackCheck = true ∧ tok ≠ s.tx.ack)) :
    onArx tok s = s := by
  rw [onArx]
  split_ifs with hs ha
  · rfl
  · rfl
  · exact absurd h (not_or.mpr ⟨hs, ha⟩)

/-- A token that ACK_CHECK lets pass in SENDING is accepted (R311). -/
theorem onArx_of_accepted {s : State} {tok : Word} (hs : s.tx.state = .sending)
    (ha : s.cfg.ackCheck = false ∨ tok = s.tx.ack) : onArx tok s = s.accept := by
  rw [onArx, if_neg (not_not.mpr hs), if_neg]
  rintro ⟨hcheck, hne⟩
  obtain hoff | heq := ha
  · rw [hcheck] at hoff
    cases hoff
  · exact hne heq

theorem accept_of_last {s : State} (h : s.tx.cur.toNat + 1 = s.tx.nseg.toNat) : s.accept = s.sampleAndLog.complete := by
  rw [State.accept, (State.lastSegment_iff s).mpr h, cond_true]

theorem lastSegment_eq_false {s : State} (h : s.tx.cur.toNat + 1 ≠ s.tx.nseg.toNat) : s.lastSegment = false :=
  Bool.eq_false_iff.mpr (mt (State.lastSegment_iff s).mp h)

theorem accept_of_not_last {s : State} (h : s.tx.cur.toNat + 1 ≠ s.tx.nseg.toNat) :
    s.accept = s.sampleAndLog.transmit (s.tx.cur.toNat + 1) := by
  rw [State.accept, lastSegment_eq_false h, cond_false]

/-- The record of an accepted token: the registers before it, and the estimate after it (R161, R312). -/
theorem log_sampleAndLog (s : State) : s.sampleAndLog.log = s.log ++ [{
    kind := 1, timestamp := s.tx.sendTime, seq := s.tx.seq, ack := s.tx.ack,
    fin := bif s.lastSegment then 1 else 0, aux := s.sampleAndLog.rtt.est }] := rfl

/-- Settles O40: a token that is not accepted leaves the state as it was. -/
theorem unacceptedTokenChangesNothing : Obligations.UnacceptedTokenChangesNothing :=
  fun _ _ h => congrArg Host.Outcome.next (onArx_of_rejected h)

/-- The sender's registers after the token of a segment that is not the last: those of the next segment, its bytes counted without
saturation (R310). -/
theorem tx_acceptNext {s : State} (hb : s.build.wf = true) (h : Awaiting s) (hs : s.tx.state = .sending)
    (hl : s.tx.cur.toNat + 1 ≠ s.tx.nseg.toNat) :
    (s.sampleAndLog.transmit (s.tx.cur.toNat + 1)).tx =
      { s.tx with
        cur := BitVec.ofNat 32 (s.tx.cur.toNat + 1)
        seq := BitVec.ofNat 32 (segSeq (s.tx.cur.toNat + 1))
        ack := BitVec.ofNat 32 (segAck s.cfg.txLen.toNat (s.tx.cur.toNat + 1))
        segSent := s.tx.segSent + 1
        bytesSent := BitVec.ofNat 32 (segAck s.cfg.txLen.toNat (s.tx.cur.toNat + 1))
        sendTime := s.now
        elapsed := 0
        retryCur := 0 } := by
  have hbytes := (awaiting_acceptNext hb h hl).bytesSent_eq
  have hsent : sat32 (s.tx.segSent.toNat + 1) = s.tx.segSent + 1 := by
    have hcount := segCount_le (txLen_le hb h.input_fits)
    have hcur := h.cur_lt
    rw [h.nseg_eq] at hcur
    have hn := h.segSent_eq
    apply BitVec.eq_of_toNat_eq
    rw [toNat_sat32_of_le (by omega), BitVec.toNat_add]
    exact (Nat.mod_eq_of_lt (by show _ + 1 < 2 ^ 32; omega)).symm
  simp only [State.transmit_tx, TxUnit.transmitted, State.sampleAndLog_tx, State.sampleAndLog_cfg, State.sampleAndLog_now,
    hsent] at hbytes ⊢
  rw [hbytes, ← hs]

/-- Settles O41: the next state is the transmission of the next segment after the sample and the record. -/
theorem acceptedTokenSendsTheNextSegment : Obligations.AcceptedTokenSendsTheNextSegment := by
  intro s tok hinv hs hacc hlt
  have haw := hinv.awaiting hs
  have hlen := txLen_le hinv.build_wf haw.input_fits
  have hcount := segCount_le hlen
  have hnext : s.tx.cur.toNat + 1 < segCount s.cfg.txLen.toNat := by rwa [← haw.nseg_eq]
  have hack := segAck_le hnext
  have hseq := segSeq_le_segAck s.cfg.txLen.toNat (s.tx.cur.toNat + 1)
  have hk := toNat_word (n := s.tx.cur.toNat + 1) (by omega)
  have hq := toNat_word (n := segSeq (s.tx.cur.toNat + 1)) (by omega)
  have ha := toNat_word (n := segAck s.cfg.txLen.toNat (s.tx.cur.toNat + 1)) (by omega)
  refine ⟨s.sampleAndLog.transmit (s.tx.cur.toNat + 1), s.sampleAndLog.segment (s.tx.cur.toNat + 1),
    BitVec.ofNat 32 (s.tx.cur.toNat + 1), BitVec.ofNat 32 (segSeq (s.tx.cur.toNat + 1)),
    BitVec.ofNat 32 (segAck s.cfg.txLen.toNat (s.tx.cur.toNat + 1)), ?_, hk, ?_, ?_, ?_, State.retained_transmit _ _, ?_,
    fun sp x hout => ?_⟩
  · rw [runEvent, onArx_of_accepted hs hacc, accept_of_not_last hlt.ne]
  · rw [hq, hk]
    rfl
  · rw [ha, hq, segAck_of_lt hnext]
    rfl
  · have hlog := log_sampleAndLog s
    rw [lastSegment_eq_false hlt.ne] at hlog
    rw [← tx_acceptNext hinv.build_wf haw hs hlt.ne, State.transmit_rtt]
    exact congrArg (fun l => { s.sampleAndLog.transmit (s.tx.cur.toNat + 1) with log := l }) hlog
  · have hwire := wireSegment_segment s.sampleAndLog (k := s.tx.cur.toNat + 1) (by
      rw [State.sampleAndLog_cfg]
      omega)
    rw [ha, hq, hk, segAck_sub_segSeq]
    exact hwire
  · exact (State.readByte_transmit _ _ sp x hout).trans (State.readByte_congr rfl rfl x)

end Sys2Proof.Machine
end

section
/-! PROOFS. What each kind of event can do to the sender and the receiver (spec/42_sender.md), and the completion of a transfer. -/

namespace Sys2Proof.Machine

open Sys2Proof.Safety

/-! ## Host accesses -/

theorem SenderKept.refl (s : State) : SenderKept s s := ⟨rfl, rfl, rfl, rfl, rfl, rfl, rfl, rfl⟩

theorem SenderKept.trans {s t u : State} (h : SenderKept s t) (h' : SenderKept t u) : SenderKept s u :=
  ⟨h'.tx.trans h.tx, h'.cfg.trans h.cfg, h'.timeout.trans h.timeout, h'.now.trans h.now, h'.txMem.trans h.txMem,
    h'.txSegbuf.trans h.txSegbuf, h'.resets.trans h.resets, h'.build.trans h.build⟩

/-- What a host access can do to the two units: nothing while SENDING or RECEIVING (R65, R433), and it neither acknowledges a segment
nor completes a transfer. -/
structure HostEffect (s t : State) : Prop where
  sending : s.tx.state = .sending → SenderKept s t
  sender : t.tx = s.tx ∨ (t.tx.state ≠ .done ∧ t.tx.cur.toNat ≤ s.tx.cur.toNat)
  receiving : s.rx.state = .receiving → t.rx = s.rx

theorem Quiet.hostEffect {s t : State} (h : Quiet s t) : HostEffect s t := ⟨h.senderKept, .inl h.tx, fun _ => h.rx⟩

theorem HostEffect.trans {s t u : State} (h : HostEffect s t) (h' : HostEffect t u) : HostEffect s u where
  sending hs := (h.sending hs).trans (h'.sending (by rwa [(h.sending hs).tx]))
  sender := by
    obtain e' | ⟨hd', hc'⟩ := h'.sender
    · rw [e']
      exact h.sender
    · obtain e | ⟨-, hc⟩ := h.sender
      · exact .inr ⟨hd', e ▸ hc'⟩
      · exact .inr ⟨hd', hc'.trans hc⟩
  receiving hs := (h'.receiving (by rwa [h.receiving hs])).trans (h.receiving hs)

theorem hostEffect_writeBytes {s : State} {sp : Space} (h : sp = .ckBuf ∨ sp = .txMem ∧ s.tx.state ≠ .sending) (o : Nat)
    (bs : List Byte) : HostEffect s (s.writeBytes sp o bs) where
  sending hs := by
    obtain rfl | ⟨-, hn⟩ := h
    · exact ⟨rfl, rfl, rfl, rfl, rfl, rfl, rfl, rfl⟩
    · exact absurd hs hn
  sender := .inl rfl
  receiving _ := rfl

/-- Outside SENDING a command can take the sender to a state that is not DONE, with TX_CUR not higher. -/
theorem HostEffect.of_sender {s t : State} (hs : s.tx.state ≠ .sending) (hd : t.tx.state ≠ .done)
    (hc : t.tx.cur.toNat ≤ s.tx.cur.toNat) (hrx : t.rx = s.rx) : HostEffect s t :=
  ⟨fun h => absurd h hs, .inr ⟨hd, hc⟩, fun _ => hrx⟩

/-- Outside RECEIVING a command can change the receiver. -/
theorem HostEffect.of_receiver {s : State} (hs : s.rx.state ≠ .receiving) (r : RxUnit) : HostEffect s { s with rx := r } :=
  ⟨fun _ => ⟨rfl, rfl, rfl, rfl, rfl, rfl, rfl, rfl⟩, .inl rfl, fun h => absurd h hs⟩

theorem execTxStart_hostEffect (s : State) : ∃ t, execTxStart s = .next t ∧ HostEffect s t := by
  have hcur (t : State) (h : t.tx.cur = 0) : t.tx.cur.toNat ≤ s.tx.cur.toNat := by
    rw [h]
    exact Nat.zero_le _
  obtain ⟨-, e⟩ | ⟨hs, -, e⟩ | ⟨hs, -, -, e⟩ | ⟨hs, -, -, e⟩ := execTxStart_cases s
  · exact ⟨_, e, (Quiet.cmdError s _).hostEffect⟩
  · exact ⟨_, e, .of_sender (by simp [hs]) (by simp) (hcur _ rfl) rfl⟩
  · exact ⟨_, e, .of_sender (by simp [hs]) (by simp) (hcur _ rfl) rfl⟩
  · exact ⟨_, e, .of_sender (by simp [hs]) (by simp [State.beginSession, TxUnit.transmitted]) (hcur _ rfl) rfl⟩

theorem execSegEncode_hostEffect (s : State) : ∃ t, execSegEncode s = .next t ∧ HostEffect s t := by
  rw [execSegEncode]
  split_ifs
  · exact ⟨_, rfl, (Quiet.cmdError s _).hostEffect⟩
  · exact ⟨_, rfl, (hostEffect_writeBytes (.inl rfl) 0 _).trans (Quiet.codec _ _).hostEffect⟩

theorem exec_hostEffect (i : Instr) (s : State) : ∃ t, exec i s = .next t ∧ HostEffect s t := by
  have herror (c : CmdCause) : HostEffect s (s.cmdError c) := (Quiet.cmdError s c).hostEffect
  have hcodec (k : CkUnit) : HostEffect s { s with ck := k } := (Quiet.codec s k).hostEffect
  cases i <;> simp only [exec]
  case nop => exact ⟨s, rfl, ⟨fun _ => .refl s, .inl rfl, fun _ => rfl⟩⟩
  case txStart => exact execTxStart_hostEffect s
  case txClear =>
    rw [execTxClear]
    split_ifs with h
    · exact ⟨_, rfl, herror _⟩
    · exact ⟨_, rfl, .of_sender h (by simp) (Nat.le_refl _) rfl⟩
  case rxStart =>
    rw [execRxStart]
    split_ifs with h
    · exact ⟨_, rfl, herror _⟩
    · exact ⟨_, rfl, .of_receiver (by simp [not_not.mp h]) _⟩
  case rxClear =>
    rw [execRxClear]
    split_ifs with h
    · exact ⟨_, rfl, herror _⟩
    · exact ⟨_, rfl, .of_receiver h _⟩
  case ckCompute => exact ⟨_, rfl, hcodec _⟩
  case ckVerify =>
    rw [execCkVerify]
    split_ifs <;> exact ⟨_, rfl, hcodec _⟩
  case segDecode =>
    rw [execSegDecode]
    split_ifs <;> exact ⟨_, rfl, hcodec _⟩
  case segEncode => exact execSegEncode_hostEffect s
  case rttInit =>
    rw [execRttInit]
    split_ifs with h
    · exact ⟨_, rfl, herror _⟩
    · exact ⟨_, rfl, (Quiet.estimator h _).hostEffect⟩
  case rttSample =>
    rw [execRttSample]
    split_ifs with h
    · exact ⟨_, rfl, herror _⟩
    · exact ⟨_, rfl, (Quiet.estimator h _).hostEffect⟩

theorem runCommand_hostEffect (w : Word) (s : State) : ∃ t, runCommand w s = .next t ∧ HostEffect s t := by
  obtain ⟨i, -, e⟩ | e := runCommand_cases w s
  · rw [e]
    exact exec_hostEffect i s
  · exact ⟨_, e, (Quiet.cmdError s _).hostEffect⟩

theorem writeWindow_hostEffect (sp : Space) (o n : Nat) (v : Word) (s : State) : HostEffect s (writeWindow sp o n v s) := by
  obtain e | e | ⟨hsp, e⟩ := writeWindow_cases sp o n v s <;> rw [e]
  · exact ⟨fun _ => .refl s, .inl rfl, fun _ => rfl⟩
  · exact (Quiet.setStatus s _).hostEffect
  · exact hostEffect_writeBytes hsp o _

theorem hostWrite_hostEffect (addr : HostAddr) (n : Nat) (v : Word) (s : State) :
    ∃ t, hostWrite addr n v s = .next t ∧ HostEffect s t := by
  have hanswer (u : State) (r : HostResponse) : HostEffect u (u.respond r) := (Quiet.respond u r).hostEffect
  obtain e | e | ⟨r, e⟩ | ⟨sp, o, -, e⟩ := hostWrite_cases (s := s) addr n v
  · exact ⟨_, e, hanswer s _⟩
  · obtain ⟨t, hr, ht⟩ := runCommand_hostEffect v (s.respond .written)
    exact ⟨t, e.trans hr, (hanswer s _).trans ht⟩
  · exact ⟨_, e, (Quiet.writeReg s r v).hostEffect.trans (hanswer _ _)⟩
  · exact ⟨_, e, (writeWindow_hostEffect sp o n v s).trans (hanswer _ _)⟩

theorem runEvent_host_effect {a : HostAccess} {s t : State} (h : runEvent (.host a) s = .next t) : HostEffect s t := by
  cases a with
  | read addr n =>
    cases h
    exact (Quiet.hostRead addr n s).hostEffect
  | write addr n v =>
    obtain ⟨u, hu, heff⟩ := hostWrite_hostEffect addr n v s
    cases hu.symm.trans h
    exact heff

/-! ## Datagrams, TICKs and tokens -/

/-- A datagram does not reach the sender (R484). -/
theorem senderKept_onDrx (d : Datagram) (s : State) : SenderKept s (onDrx d s) := by
  obtain ⟨-, e⟩ | ⟨-, -, e⟩ | ⟨-, -, -, e⟩ | ⟨-, -, -, -, e⟩ | ⟨-, -, -, -, -, e⟩ | ⟨-, -, -, -, -, e⟩ := onDrx_cases d s <;>
    rw [e]
  · exact .refl s
  · exact ⟨rfl, rfl, rfl, rfl, rfl, rfl, rfl, rfl⟩
  · exact ⟨rfl, rfl, rfl, rfl, rfl, rfl, rfl, rfl⟩
  · exact ⟨rfl, rfl, rfl, rfl, rfl, rfl, rfl, rfl⟩
  · exact ⟨rfl, rfl, rfl, rfl, rfl, rfl, rfl, rfl⟩
  · cases (decodeSeg d).fin <;> exact ⟨rfl, rfl, rfl, rfl, rfl, rfl, rfl, rfl⟩

/-- A TICK acknowledges nothing and completes nothing: it leaves the current segment, and TX as it was, waiting or FAILED (R320). -/
theorem onTick_sender (s : State) : (onTick s).tx.cur = s.tx.cur ∧ (onTick s).tx.nseg = s.tx.nseg ∧
    ((onTick s).tx.state = s.tx.state ∨ (onTick s).tx.state = .failed) := by
  by_cases h : s.tx.state = .sending
  · obtain ⟨-, e⟩ | ⟨-, -, e⟩ | ⟨-, -, e⟩ := onTick_cases s h <;> rw [e]
    · exact ⟨rfl, rfl, .inl rfl⟩
    · exact ⟨rfl, rfl, .inr rfl⟩
    · exact ⟨rfl, rfl, .inl rfl⟩
  · rw [onTick_of_not_sending h]
    exact ⟨rfl, rfl, .inl rfl⟩

theorem rx_onTick (s : State) : (onTick s).rx = s.rx := by
  by_cases h : s.tx.state = .sending
  · obtain ⟨-, e⟩ | ⟨-, -, e⟩ | ⟨-, -, e⟩ := onTick_cases s h <;> rw [e] <;> rfl
  · rw [onTick_of_not_sending h]
    rfl

theorem rx_onArx (tok : Word) (s : State) : (onArx tok s).rx = s.rx := by
  obtain ⟨-, e⟩ | ⟨-, -, e⟩ | ⟨-, -, e⟩ := onArx_cases tok s <;> rw [e] <;> rfl

/-- A token is rejected or accepted (R311). -/
theorem rejected_or_accepted (s : State) (tok : Word) :
    (s.tx.state ≠ .sending ∨ (s.cfg.ackCheck = true ∧ tok ≠ s.tx.ack)) ∨
    (s.tx.state = .sending ∧ (s.cfg.ackCheck = false ∨ tok = s.tx.ack)) := by
  by_cases hs : s.tx.state = .sending
  · by_cases ht : tok = s.tx.ack
    · exact .inr ⟨hs, .inr ht⟩
    · cases hc : s.cfg.ackCheck with
      | true => exact .inl (.inr ⟨rfl, ht⟩)
      | false => exact .inr ⟨hs, .inl rfl⟩
  · exact .inl (.inl hs)

/-! ## Completion (R312, R313, R331) -/

/-- Only an accepted token for the last segment completes a transfer. -/
theorem accepted_of_done {e : Event} {s t : State} (h : runEvent e s = .next t) (hs : s.tx.state ≠ .done)
    (ht : t.tx.state = .done) : s.tx.state = .sending ∧
    (∃ tok, e = .arx tok ∧ (s.cfg.ackCheck = false ∨ tok = s.tx.ack)) ∧ s.tx.cur.toNat + 1 = s.tx.nseg.toNat ∧
    t = s.sampleAndLog.complete := by
  cases e with
  | host a =>
    obtain htx | ⟨hd, -⟩ := (runEvent_host_effect h).sender
    · exact absurd (htx ▸ ht) hs
    · exact absurd ht hd
  | tick =>
    cases h
    obtain ⟨-, -, hstate | hstate⟩ := onTick_sender s
    · exact absurd (hstate.symm.trans ht) hs
    · cases hstate.symm.trans ht
  | drx d =>
    cases h
    exact absurd ((senderKept_onDrx d s).tx ▸ ht) hs
  | arx tok =>
    cases h
    obtain hrej | ⟨hsend, hacc⟩ := rejected_or_accepted s tok
    · exact absurd (onArx_of_rejected hrej ▸ ht) hs
    · rw [onArx_of_accepted hsend hacc] at ht ⊢
      by_cases hl : s.tx.cur.toNat + 1 = s.tx.nseg.toNat
      · exact ⟨hsend, ⟨tok, rfl, hacc⟩, hl, accept_of_last hl⟩
      · rw [accept_of_not_last hl] at ht
        cases ht
  | rst =>
    cases h
    cases ht

/-- When the last segment is acknowledged the statistics are those of the whole input (R331). -/
theorem bytesSent_of_last {s : State} (h : Awaiting s) (hl : s.tx.cur.toNat + 1 = s.tx.nseg.toNat) :
    s.tx.bytesSent = s.cfg.txLen := by
  have hlast : s.tx.cur.toNat = segCount s.cfg.txLen.toNat - 1 := by
    have hn := h.nseg_eq
    omega
  apply BitVec.eq_of_toNat_eq
  rw [h.bytesSent_eq, h.ack_eq, hlast, segAck_last]

/-- Settles O42: the accepted token, evaluated; and the inversion of a step into DONE, with the statistics the invariant gives. -/
theorem acceptedFinalTokenCompletes : Obligations.AcceptedFinalTokenCompletes := by
  constructor
  · intro s tok hs hacc hl
    have hlog := log_sampleAndLog s
    rw [(State.lastSegment_iff s).mpr hl] at hlog
    refine ⟨s.sampleAndLog.complete, ?_, ?_⟩
    · rw [runEvent, onArx_of_accepted hs hacc, accept_of_last hl]
    · exact congrArg (fun l => { s.sampleAndLog.complete with log := l }) hlog
  · intro s t hinv hstep hs ht
    obtain ⟨l, k, -, ⟨-, e⟩ | ⟨x, hx, e⟩⟩ := step_cases s <;> rw [e] at hstep
    · cases hstep
      exact absurd ht hs
    · obtain ⟨hsend, ⟨tok, rfl, hacc⟩, hl, rfl⟩ := accepted_of_done hstep hs ht
      have haw := hinv.awaiting hsend
      exact ⟨hsend, ⟨tok, hx, hacc⟩, rfl, bytesSent_of_last (s := s) haw hl, BitVec.eq_of_toNat_eq (haw.segSent_eq.trans hl),
        haw.nseg_eq, rfl, rfl⟩

end Sys2Proof.Machine
end

section
/-! PROOFS. Endless executions (R487): a sender no token passes, a receiver no FIN segment reaches, and the tokens of the ack
channel (R482). -/

namespace Sys2Proof.Machine

open Sys2Proof.Safety

theorem State.take_of_next {e : Event} {s t : State} (h : runEvent e s = .next t) : s.take (some e) = t := by
  rw [State.take, h]

/-! ## The waiting sender (R322) -/

/-- In SENDING, what is neither a TICK nor RST nor a token that passes ACK_CHECK does not reach the sender. -/
theorem senderKept_take {s : State} {p : Option Event} (hs : s.tx.state = .sending) (hrst : p ≠ some .rst)
    (htick : p ≠ some .tick) (harx : ∀ tok, p = some (.arx tok) → s.cfg.ackCheck = true ∧ tok ≠ s.tx.ack) :
    SenderKept s (s.take p) := by
  cases p with
  | none => exact .refl s
  | some e =>
    cases e with
    | host a => exact (runEvent_host_effect (s.take_some _)).sending hs
    | tick => exact absurd rfl htick
    | drx d => exact senderKept_onDrx d s
    | arx tok =>
      have hsame : s.take (some (.arx tok)) = s := onArx_of_rejected (.inr (harx tok rfl))
      rw [hsame]
      exact .refl s
    | rst => exact absurd rfl hrst

/-- In u the sender still waits for the token it waits for in s, under the same configuration and with the same segment retained. -/
structure StillWaits (s u : State) : Prop where
  state : u.tx.state = .sending
  ack : u.tx.ack = s.tx.ack
  cfg : u.cfg = s.cfg
  timeout : u.rtt.timeout = s.rtt.timeout
  retained : u.retained = s.retained

theorem StillWaits.of_kept {s u v : State} (h : StillWaits s u) (hk : SenderKept u v) : StillWaits s v where
  state := by rw [hk.tx, h.state]
  ack := by rw [hk.tx, h.ack]
  cfg := by rw [hk.cfg, h.cfg]
  timeout := by rw [hk.timeout, h.timeout]
  retained := by rw [State.retained_congr hk.txSegbuf hk.resets, h.retained]

/-- TX gives up between u and v (R320, R322). -/
def GivesUp (u v : State) : Prop :=
  u.cfg.maxRetry ≠ 0 ∧ u.tx.state = .sending ∧ v.tx.state = .failed ∧ v.tx.cause = .giveUp

theorem StillWaits.tick {s u : State} (h : StillWaits s u) : StillWaits s (onTick u) ∨ GivesUp u (onTick u) := by
  obtain ⟨-, e⟩ | ⟨-, hr, e⟩ | ⟨-, -, e⟩ := onTick_cases u h.state <;> rw [e]
  · exact .inl ⟨h.state, h.ack, h.cfg, h.timeout, h.retained⟩
  · exact .inr ⟨((State.retriesUsedUp_iff u).mp hr).1, h.state, rfl, rfl⟩
  · exact .inl ⟨h.state, h.ack, h.cfg, h.timeout, h.retained⟩

/-- A schedule without RST and without a token that passes ACK_CHECK in s. -/
structure Unacknowledged (ev : Schedule) (s : State) : Prop where
  no_rst : ∀ n, ev n ≠ some .rst
  rejected : ∀ n tok, ev n = some (.arx tok) → s.cfg.ackCheck = true ∧ tok ≠ s.tx.ack

section
variable {ev : Schedule} {s : State}

theorem StillWaits.senderKept {u : State} (h : StillWaits s u) (hev : Unacknowledged ev s) {n : Nat}
    (htick : ev n ≠ some .tick) : SenderKept u (u.take (ev n)) := by
  refine senderKept_take h.state (hev.no_rst n) htick (fun tok htok => ?_)
  rw [h.cfg, h.ack]
  exact hev.rejected n tok htok

theorem StillWaits.take {u : State} (h : StillWaits s u) (hev : Unacknowledged ev s) (n : Nat) :
    StillWaits s (u.take (ev n)) ∨ GivesUp u (u.take (ev n)) := by
  by_cases htick : ev n = some .tick
  · rw [htick]
    exact h.tick
  · exact .inl (h.of_kept (h.senderKept hev htick))

/-- Without acknowledgment the sender waits until it gives up. -/
theorem stillWaits_or_givesUp (hs : s.tx.state = .sending) (hev : Unacknowledged ev s) (n : Nat) :
    StillWaits s (execution ev s n) ∨ ∃ m, m < n ∧ StillWaits s (execution ev s m) ∧
      GivesUp (execution ev s m) (execution ev s (m + 1)) := by
  induction n with
  | zero => exact .inl ⟨hs, rfl, rfl, rfl, rfl⟩
  | succ n ih =>
    obtain hw | ⟨m, hm, hg⟩ := ih
    · exact (hw.take hev n).imp_right fun hg => ⟨n, Nat.lt_succ_self n, hw, hg⟩
    · exact .inr ⟨m, Nat.lt_succ_of_lt hm, hg⟩

/-- With MAX_RETRY = 0 it never gives up (R322). -/
theorem stillWaits_of_unbounded (hs : s.tx.state = .sending) (hev : Unacknowledged ev s) (h0 : s.cfg.maxRetry = 0) (n : Nat) :
    StillWaits s (execution ev s n) := by
  obtain hw | ⟨m, -, hw, hne, -⟩ := stillWaits_or_givesUp hs hev n
  · exact hw
  · rw [hw.cfg] at hne
    exact absurd h0 hne

/-- ELAPSED stands until the next TICK. -/
theorem exists_tick_elapsed_eq (hw : ∀ n, StillWaits s (execution ev s n)) (hev : Unacknowledged ev s) {n d : Nat}
    (htick : ev (n + d) = some .tick) :
    ∃ m, n ≤ m ∧ ev m = some .tick ∧ (execution ev s m).tx.elapsed = (execution ev s n).tx.elapsed := by
  induction d generalizing n with
  | zero => exact ⟨n, Nat.le_refl n, htick, rfl⟩
  | succ d ih =>
    by_cases h : ev n = some .tick
    · exact ⟨n, Nat.le_refl n, h, rfl⟩
    · obtain ⟨m, hm, hmt, he⟩ := ih (n := n + 1) (by rwa [Nat.add_right_comm, Nat.add_assoc])
      exact ⟨m, Nat.le_of_succ_le hm, hmt, he.trans (congrArg _ ((hw n).senderKept hev h).tx)⟩

/-- The datagram retained in s is sent again between u and v, and STATUS.TX_RETX is set (R321). -/
def Retransmits (s u v : State) : Prop := v.dtx = u.dtx ++ [s.retained] ∧ v.status.getLsbD 5 = true

theorem StillWaits.retransmits {u : State} (h : StillWaits s u) :
    Retransmits s u u.advanceNow.advanceElapsed.retransmit := by
  constructor
  · rw [State.retransmit_dtx, ← h.retained]
    rfl
  · rw [State.retransmit_status, BitVec.getLsbD_or]
    exact Bool.or_true _

/-- A TICK sends the retained segment again, or ELAPSED advances below the timeout. -/
theorem StillWaits.tick_of_unbounded {u : State} (h : StillWaits s u) (h0 : s.cfg.maxRetry = 0) :
    Retransmits s u (onTick u) ∨
    ((onTick u).tx.elapsed.toNat = u.tx.elapsed.toNat + 1 ∧ (u.tx.elapsed.toNat + 1) * 256 < s.rtt.timeout.toNat) := by
  by_cases ht : u.rtt.timeout.toNat ≤ (sat32 (u.tx.elapsed.toNat + 1)).toNat * 256
  · rw [onTick_retransmit h.state ht (.inl (by rw [h.cfg, h0]))]
    exact .inl h.retransmits
  · rw [onTick_wait h.state (Nat.lt_of_not_le ht)]
    rw [h.timeout, toNat_sat32] at ht
    have htimeout := s.rtt.timeout.isLt
    have hsmall : u.tx.elapsed.toNat + 1 ≤ 0xFFFFFFFF := by omega
    refine .inr ⟨toNat_sat32_of_le hsmall, ?_⟩
    omega

/-- The next TICK sends the retained segment again, or brings ELAPSED one nearer to the timeout. -/
theorem exists_retransmission_or_advance (hw : ∀ n, StillWaits s (execution ev s n)) (hev : Unacknowledged ev s)
    (h0 : s.cfg.maxRetry = 0) (hticks : ∀ k, ∃ m, k ≤ m ∧ ev m = some .tick) (n : Nat) :
    ∃ m, n ≤ m ∧ (Retransmits s (execution ev s m) (execution ev s (m + 1)) ∨
      ((execution ev s (m + 1)).tx.elapsed.toNat = (execution ev s n).tx.elapsed.toNat + 1 ∧
        ((execution ev s n).tx.elapsed.toNat + 1) * 256 < s.rtt.timeout.toNat)) := by
  obtain ⟨k, hk, hkt⟩ := hticks n
  obtain ⟨m, hm, hmt, he⟩ := exists_tick_elapsed_eq hw hev (n := n) (d := k - n) (by rwa [Nat.add_sub_cancel' hk])
  have hstep : execution ev s (m + 1) = onTick (execution ev s m) := by
    rw [execution, hmt]
    rfl
  refine ⟨m, hm, ?_⟩
  rw [hstep, ← he]
  exact (hw m).tick_of_unbounded h0

/-- While TICKs keep coming, with at most j of them left before the timeout, there is a retransmission. -/
theorem exists_retransmission (hw : ∀ n, StillWaits s (execution ev s n)) (hev : Unacknowledged ev s) (h0 : s.cfg.maxRetry = 0)
    (hticks : ∀ k, ∃ m, k ≤ m ∧ ev m = some .tick) (j n : Nat)
    (hj : s.rtt.timeout.toNat ≤ ((execution ev s n).tx.elapsed.toNat + j) * 256) :
    ∃ m, n ≤ m ∧ Retransmits s (execution ev s m) (execution ev s (m + 1)) := by
  induction j generalizing n with
  | zero =>
    obtain ⟨m, hm, hr | ⟨-, hlt⟩⟩ := exists_retransmission_or_advance hw hev h0 hticks n
    · exact ⟨m, hm, hr⟩
    · omega
  | succ j ih =>
    obtain ⟨m, hm, hr | ⟨hadv, -⟩⟩ := exists_retransmission_or_advance hw hev h0 hticks n
    · exact ⟨m, hm, hr⟩
    · obtain ⟨m', hm', hr⟩ := ih (m + 1) (by rwa [hadv, Nat.add_assoc, Nat.add_comm 1])
      exact ⟨m', Nat.le_of_succ_le (Nat.le_trans (Nat.succ_le_succ hm) hm'), hr⟩

end

/-! ## The waiting receiver (R375) -/

/-- A datagram that is no valid FIN segment leaves the receiver in RECEIVING, unless it overflows (R376 to R388). -/
theorem onDrx_receiving {s : State} {d : Datagram} (hs : s.rx.state = .receiving) (hd : Valid d → num d 14 = 0) :
    (onDrx d s).rx.state = .receiving ∨ ((onDrx d s).rx.state = .failed ∧ (onDrx d s).rx.cause = .overflow) := by
  obtain ⟨-, e⟩ | ⟨-, -, e⟩ | ⟨-, -, -, e⟩ | ⟨-, -, -, -, e⟩ | ⟨-, -, -, -, -, e⟩ | ⟨-, hlen, hv, hp, -, e⟩ := onDrx_cases d s <;>
    rw [e]
  · exact .inl hs
  · exact .inl hs
  · exact .inl hs
  · exact .inl hs
  · exact .inr ⟨rfl, rfl⟩
  · have hfin : (decodeSeg d).fin = false := by
      have hnum : num d 14 = 0 := hd ⟨hlen, hv, by rwa [← toNat_payloadLength_decodeSeg]⟩
      have hbyte : (decodeSeg d).finByte = 0 := BitVec.eq_of_toNat_eq hnum
      rw [SegFields.fin, hbyte]
      rfl
    rw [hfin]
    exact .inl hs

theorem take_receiving {s : State} {p : Option Event} (hs : s.rx.state = .receiving) (hrst : p ≠ some .rst)
    (hdrx : ∀ d, p = some (.drx d) → Valid d → num d 14 = 0) :
    (s.take p).rx.state = .receiving ∨ ((s.take p).rx.state = .failed ∧ (s.take p).rx.cause = .overflow) := by
  have kept (t : State) (h : t.rx = s.rx) : t.rx.state = .receiving := by rw [h, hs]
  cases p with
  | none => exact .inl hs
  | some e =>
    cases e with
    | host a => exact .inl (kept _ ((runEvent_host_effect (s.take_some _)).receiving hs))
    | tick => exact .inl (kept _ (rx_onTick s))
    | drx d => exact onDrx_receiving hs (hdrx d rfl)
    | arx tok => exact .inl (kept _ (rx_onArx tok s))
    | rst => exact absurd rfl hrst

/-- Without a valid FIN segment the receiver waits until it overflows. -/
theorem receiving_or_overflows {ev : Schedule} {s : State} (hs : s.rx.state = .receiving) (hrst : ∀ n, ev n ≠ some .rst)
    (hdrx : ∀ n d, ev n = some (.drx d) → Valid d → num d 14 = 0) (n : Nat) :
    (execution ev s n).rx.state = .receiving ∨ ∃ m, m < n ∧ (execution ev s m).rx.state = .receiving ∧
      (execution ev s (m + 1)).rx.state = .failed ∧ (execution ev s (m + 1)).rx.cause = .overflow := by
  induction n with
  | zero => exact .inl hs
  | succ n ih =>
    obtain hw | ⟨m, hm, h⟩ := ih
    · exact (take_receiving hw (hrst n) (hdrx n)).imp_right fun h => ⟨n, Nat.lt_succ_self n, hw, h⟩
    · exact .inr ⟨m, Nat.lt_succ_of_lt hm, h⟩

/-! ## Both waits in one execution -/

/-- RX_START, TX_START, and then TICKs for ever. -/
def startThenTicks : Schedule
  | 0 => some (cmdWrite (encode .rxStart))
  | 1 => some (cmdWrite (encode .txStart))
  | _ + 2 => some .tick

/-- The host's write of a command's word runs the command. -/
theorem take_cmdWrite {i : Instr} {s t : State} (h : exec i (s.respond .written) = .next t) :
    s.take (some (cmdWrite (encode i))) = t := by
  apply State.take_of_next
  rw [runEvent_cmdWrite, runCommand_of_decode (decode_encode i), h]

/-- Both units wait, after n + 1 transmissions, with no timeout to wait for and no retry bound. -/
structure BothWait (n : Nat) (s : State) : Prop where
  sending : s.tx.state = .sending
  receiving : s.rx.state = .receiving
  timeout : s.rtt.timeout = 0
  unbounded : s.cfg.maxRetry = 0
  sent : s.dtx.length = n + 1

theorem BothWait.tick {n : Nat} {s : State} (h : BothWait n s) : BothWait (n + 1) (onTick s) := by
  rw [onTick_retransmit h.sending (by rw [h.timeout]; exact Nat.zero_le _) (.inl h.unbounded)]
  refine ⟨h.sending, h.receiving, h.timeout, h.unbounded, ?_⟩
  rw [State.retransmit_dtx, List.length_append, List.length_singleton]
  exact congrArg (· + 1) h.sent

theorem bothWait_startThenTicks (n : Nat) : BothWait n (execution startThenTicks State.reset (n + 2)) := by
  induction n with
  | zero =>
    have hstart : execution startThenTicks State.reset 2 =
        (State.respond (execution startThenTicks State.reset 1) .written).prepared.transmit 0 :=
      take_cmdWrite (i := .txStart) (exec_txStart_of_fits rfl (Nat.zero_le _) rfl)
    rw [hstart]
    exact ⟨rfl, rfl, rfl, rfl, rfl⟩
  | succ n ih => exact ih.tick

/-- Settles O59: a wait without acknowledgment, where each TICK brings the next retransmission nearer; a reception without FIN; and
the schedule startThenTicks. -/
theorem livenessGapsAreExecutions : Obligations.LivenessGapsAreExecutions := by
  refine ⟨fun ev s hs hrst harx => ?_, fun ev s hs hrst hdrx => receiving_or_overflows hs hrst hdrx, startThenTicks, fun n => ?_⟩
  · have hev : Unacknowledged ev s := ⟨hrst, harx⟩
    refine ⟨fun h0 n => ?_, fun n => ?_⟩
    · have hw := stillWaits_of_unbounded hs hev h0
      refine ⟨(hw n).state, fun hticks => exists_retransmission hw hev h0 hticks (2 ^ 24) n ?_⟩
      have htimeout := s.rtt.timeout.isLt
      omega
    · obtain hw | ⟨m, hm, -, -, hg⟩ := stillWaits_or_givesUp hs hev n
      · exact .inl hw.state
      · exact .inr ⟨m, hm, hg⟩
  · have hboth := bothWait_startThenTicks n
    exact ⟨hboth.sending, hboth.receiving, hboth.sent⟩

/-! ## The ack channel (R482) -/

/-- TX has acknowledged at most m segments: TX_CUR counts them in a session, and TX_NSEG once it is DONE. -/
structure AcknowledgedAtMost (m : Nat) (s : State) : Prop where
  cur_le : s.tx.cur.toNat ≤ m
  nseg_le : s.tx.state = .done → s.tx.nseg.toNat ≤ m

section
variable {m : Nat} {s t : State}

theorem AcknowledgedAtMost.congr (h : AcknowledgedAtMost m s) (htx : t.tx = s.tx) : AcknowledgedAtMost m t :=
  ⟨htx ▸ h.cur_le, fun hd => htx ▸ h.nseg_le (htx ▸ hd)⟩

theorem AcknowledgedAtMost.of_not_done (hd : t.tx.state ≠ .done) (hc : t.tx.cur.toNat ≤ m) : AcknowledgedAtMost m t :=
  ⟨hc, fun h => absurd h hd⟩

theorem AcknowledgedAtMost.tick (h : AcknowledgedAtMost m s) : AcknowledgedAtMost m (onTick s) := by
  obtain ⟨hcur, hnseg, hstate | hstate⟩ := onTick_sender s
  · exact ⟨hcur ▸ h.cur_le, fun hd => hnseg ▸ h.nseg_le (hstate.symm.trans hd)⟩
  · exact .of_not_done (by simp [hstate]) (hcur ▸ h.cur_le)

/-- A token acknowledges at most one segment (R311, R312). -/
theorem AcknowledgedAtMost.token (h : AcknowledgedAtMost m s) (tok : Word) : AcknowledgedAtMost (m + 1) (onArx tok s) := by
  have hcur := h.cur_le
  obtain ⟨-, e⟩ | ⟨-, hl, e⟩ | ⟨-, -, e⟩ := onArx_cases tok s <;> rw [e]
  · exact ⟨Nat.le_succ_of_le hcur, fun hd => Nat.le_succ_of_le (h.nseg_le hd)⟩
  · exact ⟨Nat.le_succ_of_le hcur, fun _ => hl ▸ Nat.succ_le_succ hcur⟩
  · refine .of_not_done (by simp [TxUnit.transmitted]) ?_
    calc (BitVec.ofNat 32 (s.tx.cur.toNat + 1)).toNat = (s.tx.cur.toNat + 1) % 2 ^ 32 := BitVec.toNat_ofNat _ _
      _ ≤ s.tx.cur.toNat + 1 := Nat.mod_le _ _
      _ ≤ m + 1 := Nat.succ_le_succ hcur

theorem AcknowledgedAtMost.take (h : AcknowledgedAtMost m s) (p : Option Event) :
    AcknowledgedAtMost (m + (p.toList.filterMap Event.token).length) (s.take p) := by
  cases p with
  | none => exact h
  | some e =>
    cases e with
    | host a =>
      obtain htx | ⟨hd, hc⟩ := (runEvent_host_effect (s.take_some (.host a))).sender
      · exact h.congr htx
      · exact .of_not_done hd (hc.trans h.cur_le)
    | tick => exact h.tick
    | drx d => exact h.congr (senderKept_onDrx d s).tx
    | arx tok => exact h.token tok
    | rst => exact .of_not_done (fun hd => by cases hd) (Nat.zero_le _)

end

section
variable {ev peerEv : Schedule} {s peer : State}

/-- TX acknowledges no more segments than tokens arrive. -/
theorem acknowledged_le_received (hd : s.tx.state ≠ .done) (hc : s.tx.cur = 0) (n : Nat) :
    AcknowledgedAtMost (tokensReceived ev n).length (execution ev s n) := by
  induction n with
  | zero => exact .of_not_done hd (by rw [execution, hc]; exact Nat.zero_le _)
  | succ n ih =>
    rw [tokensReceived_succ, List.length_append]
    exact ih.take (ev n)

theorem length_tokensSent_le_succ (peerEv : Schedule) (peer : State) (n : Nat) :
    (tokensSent peerEv peer n).length ≤ (tokensSent peerEv peer (n + 1)).length := by
  rw [tokensSent, List.length_append]
  exact Nat.le_add_right _ _

theorem received_le_sent (h : AckChannel ev s peerEv peer) (n : Nat) :
    (tokensReceived ev n).length ≤ (tokensSent peerEv peer n).length := by
  cases n with
  | zero => exact Nat.zero_le _
  | succ n => exact (ackChannel_length_le h n).trans (length_tokensSent_le_succ peerEv peer n)

/-- Tokens arrive one at a time, so every number of them up to the last is passed. -/
theorem exists_tokensReceived_length {n k : Nat} (h : k ≤ (tokensReceived ev n).length) :
    ∃ m, m ≤ n ∧ (tokensReceived ev m).length = k := by
  induction n with
  | zero => exact ⟨0, Nat.le_refl 0, (Nat.le_zero.mp h).symm⟩
  | succ n ih =>
    by_cases hk : k ≤ (tokensReceived ev n).length
    · obtain ⟨m, hm, e⟩ := ih hk
      exact ⟨m, Nat.le_succ_of_le hm, e⟩
    · have hone := length_tokensReceived_succ ev n
      exact ⟨n + 1, Nat.le_refl _, by omega⟩

/-- Over the default channel the tokens sent so far are, at some time, exactly those received. -/
theorem exists_received_eq_sent (h : AckChannel ev s peerEv peer) (hb : s.build.ackChannelLossy = false) (n : Nat) :
    ∃ m, tokensReceived ev m = tokensSent peerEv peer n := by
  rw [AckChannel, hb, if_neg Bool.false_ne_true] at h
  obtain ⟨k, hk⟩ := h.2 n
  obtain ⟨m, hm, hlen⟩ := exists_tokensReceived_length hk.length_le
  have hprefix := List.prefix_of_prefix_length_le (tokensReceived_prefix ev hm) hk hlen.le
  exact ⟨m, hprefix.eq_of_length hlen⟩

end

/-- Settles O60: acknowledged segments against tokens received, and those against tokens sent; and the default channel. -/
theorem noSegmentPassesWithoutAPeerToken : Obligations.NoSegmentPassesWithoutAPeerToken := by
  intro ev peerEv s peer h
  refine ⟨fun hd hc n => ?_, exists_received_eq_sent h⟩
  have hack := acknowledged_le_received (ev := ev) hd hc n
  have hsent := received_le_sent h n
  exact ⟨hack.cur_le.trans hsent, fun hdone => (hack.nseg_le hdone).trans hsent⟩

end Sys2Proof.Machine
end

section
/-! PROOFS. The receiver (spec/43_receiver.md): its two commands, and what a datagram does in each of the cases of R375 to R388. -/

namespace Sys2Proof.Machine

open Sys2Proof.Safety

/-! ## The commands (R370, R371) -/

/-- Settles O43: one clause for each branch of RX_START. -/
theorem rxStartBeginsReception : Obligations.RxStartBeginsReception :=
  ⟨decode_encode .rxStart, fun _ => ⟨fun h => if_pos h, fun h => if_neg (not_not.mpr h)⟩⟩

/-- Settles O44: one clause for each branch of RX_CLEAR. -/
theorem rxClearReturnsToIdle : Obligations.RxClearReturnsToIdle :=
  ⟨decode_encode .rxClear, fun _ => ⟨fun h => if_pos h, fun h => if_neg h⟩⟩

/-! ## A datagram, case by case (R375, R376, R380 to R384) -/

section
variable {s : State} {d : Datagram}

theorem onDrx_of_not_receiving (h : s.rx.state ≠ .receiving) : onDrx d s = s := if_pos h

theorem onDrx_of_length_ne (hs : s.rx.state = .receiving) (hd : d.length ≠ 576) : onDrx d s = s.dropMalformed := by
  rw [onDrx, if_neg (not_not.mpr hs), if_pos hd]

/-- A datagram of a segment's length is stored and then checked (R381). -/
theorem onDrx_of_length (hs : s.rx.state = .receiving) (hd : d.length = 576) :
    onDrx d s = (s.writeBytes .rxSegbuf 0 d).checkAndDeliver d := by
  rw [onDrx, if_neg (not_not.mpr hs), if_neg (not_not.mpr hd)]

theorem checkAndDeliver_of_corrupt (hv : verify d = false) : s.checkAndDeliver d = s.dropCorrupt := if_pos hv

theorem checkAndDeliver_of_too_long (hv : verify d = true) (hp : 556 < trueLength d) :
    s.checkAndDeliver d = s.dropMalformed := by
  rw [← toNat_payloadLength_decodeSeg] at hp
  rw [State.checkAndDeliver, if_neg (by simp [hv]), if_pos hp]

theorem checkAndDeliver_of_overflow (hv : verify d = true) (hp : trueLength d ≤ 556)
    (hb : s.build.rxMemSize < s.rx.bytes.toNat + trueLength d) : s.checkAndDeliver d = s.raiseRx .overflow := by
  rw [← toNat_payloadLength_decodeSeg] at hp hb
  rw [State.checkAndDeliver, if_neg (by simp [hv]), if_neg (Nat.not_lt.mpr hp), if_pos hb]

theorem checkAndDeliver_of_fits (hv : verify d = true) (hp : trueLength d ≤ 556)
    (hb : s.rx.bytes.toNat + trueLength d ≤ s.build.rxMemSize) :
    s.checkAndDeliver d = bif (decodeSeg d).fin then (s.deliver d).finishRx else s.deliver d := by
  rw [← toNat_payloadLength_decodeSeg] at hp hb
  rw [State.checkAndDeliver, if_neg (by simp [hv]), if_neg (Nat.not_lt.mpr hp), if_neg (Nat.not_lt.mpr hb)]

/-- VERIFY holds exactly when the embedded checksum is the closed form of the sum (R204, R207). -/
theorem verify_iff (hd : d.length = 576) : verify d = true ↔ num16 d 16 = closedForm (wordTotal d) := by
  rw [verify_eq_decide, decide_eq_true_iff, toNat_cksum hd, eq_comm]

/-- A state whose memories are those of s with d stored in RX_SEGBUF holds d there, and every other byte of s. -/
theorem rxSegbuf_stored {t : State} (hd : d.length = 576) (hm : t.mem = (s.writeBytes .rxSegbuf 0 d).mem)
    (hr : t.resets = s.resets) :
    t.readBytes .rxSegbuf 0 576 = d ∧ ∀ sp a, sp ≠ .rxSegbuf ∨ 576 ≤ a → t.readByte sp a = s.readByte sp a := by
  have hread (sp : Space) : t.mem.get sp = (s.writeBytes .rxSegbuf 0 d).mem.get sp := by rw [hm]
  refine ⟨(State.readBytes_congr (hread _) hr 0 576).trans (readBytes_rxSegbuf s hd), fun sp a hout => ?_⟩
  rw [State.readByte_congr (hread sp) hr, State.readByte_writeBytes, if_neg]
  rintro ⟨hsp, -, ha⟩
  obtain hne | hle := hout
  · exact hne hsp
  · omega

end

/-- Settles O45: outside RECEIVING a datagram leaves the state as it was. -/
theorem datagramOutsideReceivingIsIgnored : Obligations.DatagramOutsideReceivingIsIgnored :=
  fun _ _ h => congrArg Host.Outcome.next (onDrx_of_not_receiving h)

/-- Settles O46: the three drops; the two of a datagram of 576 bytes come after it is stored. -/
theorem badDatagramsAreDropped : Obligations.BadDatagramsAreDropped := by
  intro s d hs
  refine ⟨sat32 (s.rx.dropMalf.toNat + 1), sat32 (s.rx.dropCksum.toNat + 1), toNat_sat32 _, toNat_sat32 _,
    fun hd => ?_, fun hd hne => ?_, fun hd he hp => ?_⟩
  · rw [runEvent, onDrx_of_length_ne hs hd]
    rfl
  · have hv : verify d = false := Bool.eq_false_iff.mpr (mt (verify_iff hd).mp hne)
    refine ⟨(s.writeBytes .rxSegbuf 0 d).dropCorrupt, ?_, rfl, rxSegbuf_stored hd rfl rfl⟩
    rw [runEvent, onDrx_of_length hs hd, checkAndDeliver_of_corrupt hv]
  · refine ⟨(s.writeBytes .rxSegbuf 0 d).dropMalformed, ?_, rfl, rxSegbuf_stored hd rfl rfl⟩
    rw [runEvent, onDrx_of_length hs hd, checkAndDeliver_of_too_long ((verify_iff hd).mpr he) hp]

/-- Settles O47: the datagram is stored, and the fault touches no memory and no trace. -/
theorem overflowFaultsTheReceiver : Obligations.OverflowFaultsTheReceiver := by
  rintro s d hs ⟨hd, hv, hp⟩ hb
  refine ⟨(s.writeBytes .rxSegbuf 0 d).raiseRx .overflow, ?_, rfl, rxSegbuf_stored hd rfl rfl⟩
  rw [runEvent, onDrx_of_length hs hd, checkAndDeliver_of_overflow (s := s.writeBytes .rxSegbuf 0 d) hv hp hb]

/-! ## Delivery (R385 to R388) -/

/-- What a valid segment that fits leaves: it is stored, delivered, and ends the reception if it is a FIN. -/
def State.delivered (s : State) (d : Datagram) : State :=
  bif (decodeSeg d).fin then ((s.writeBytes .rxSegbuf 0 d).deliver d).finishRx else (s.writeBytes .rxSegbuf 0 d).deliver d

section
variable {s : State} {d : Datagram}

theorem onDrx_of_valid (hs : s.rx.state = .receiving) (hd : Valid d)
    (hb : s.rx.bytes.toNat + trueLength d ≤ s.build.rxMemSize) : onDrx d s = s.delivered d := by
  obtain ⟨hlen, hv, hp⟩ := hd
  rw [onDrx_of_length hs hlen, checkAndDeliver_of_fits (s := s.writeBytes .rxSegbuf 0 d) hv hp hb, State.delivered]

theorem fin_decodeSeg (d : Datagram) : (decodeSeg d).fin = decide (num d 14 ≠ 0) := by
  have hzero : (decodeSeg d).finByte = 0 ↔ num d 14 = 0 := BitVec.toNat_inj.symm
  rw [Bool.eq_iff_iff, SegFields.fin, bne_iff_ne, decide_eq_true_iff, Ne, hzero]

theorem delivered_of_fin (h : num d 14 ≠ 0) : s.delivered d = ((s.writeBytes .rxSegbuf 0 d).deliver d).finishRx := by
  rw [State.delivered, fin_decodeSeg, decide_eq_true h, cond_true]

theorem delivered_of_not_fin (h : num d 14 = 0) : s.delivered d = (s.writeBytes .rxSegbuf 0 d).deliver d := by
  rw [State.delivered, fin_decodeSeg, decide_eq_false (not_not.mpr h), cond_false]

theorem mem_delivered (s : State) (d : Datagram) :
    (s.delivered d).mem = ((s.writeBytes .rxSegbuf 0 d).deliver d).mem := by
  rw [State.delivered]
  cases (decodeSeg d).fin <;> rfl

theorem resets_delivered (s : State) (d : Datagram) : (s.delivered d).resets = s.resets := by
  rw [State.delivered]
  cases (decodeSeg d).fin <;> rfl

theorem build_delivered (s : State) (d : Datagram) : (s.delivered d).build = s.build := by
  rw [State.delivered]
  cases (decodeSeg d).fin <;> rfl

theorem atx_delivered (s : State) (d : Datagram) : (s.delivered d).atx = s.atx ++ [(decodeSeg d).ackNumber] := by
  rw [State.delivered]
  cases (decodeSeg d).fin <;> rfl

theorem getD_payloadOf (d : Datagram) {n k : Nat} (h : k < n) : (payloadOf d n).getD k 0 = d.getD (20 + k) 0 := by
  simp [payloadOf, List.getD_eq_getElem?_getD, h]

/-- Delivery stores the payload in RX_MEM, and besides it only the datagram in RX_SEGBUF. -/
theorem readByte_delivered (hd : Valid d) (sp : Space) (x : Nat) :
    (s.delivered d).readByte sp x =
      if sp = .rxMem ∧ s.rx.bytes.toNat ≤ x ∧ x < s.rx.bytes.toNat + trueLength d then
        d.getD (20 + (x - s.rx.bytes.toNat)) 0
      else (s.writeBytes .rxSegbuf 0 d).readByte sp x := by
  obtain ⟨hlen, -, hp⟩ := hd
  have hdeliver : (s.delivered d).readByte sp x = ((s.writeBytes .rxSegbuf 0 d).deliver d).readByte sp x :=
    State.readByte_congr (s := (s.writeBytes .rxSegbuf 0 d).deliver d) (by rw [mem_delivered]) (resets_delivered s d) x
  rw [hdeliver, readByte_deliver, State.readByte_writeBytes, State.writeBytes_rx, toNat_payloadLength_decodeSeg,
    length_payloadOf hlen hp]
  split_ifs with h
  · exact getD_payloadOf d (by omega)
  · rfl

theorem readByte_delivered_payload (hd : Valid d) {k : Nat} (hk : k < trueLength d) :
    (s.delivered d).readByte .rxMem (s.rx.bytes.toNat + k) = d.getD (20 + k) 0 := by
  rw [readByte_delivered hd, if_pos ⟨rfl, by omega, by omega⟩, Nat.add_sub_cancel_left]

theorem readByte_delivered_outside (hd : Valid d) {sp : Space} {x : Nat} (hseg : ¬ (sp = .rxSegbuf ∧ x < 576))
    (hmem : ¬ (sp = .rxMem ∧ s.rx.bytes.toNat ≤ x ∧ x < s.rx.bytes.toNat + trueLength d)) :
    (s.delivered d).readByte sp x = s.readByte sp x := by
  rw [readByte_delivered hd, if_neg hmem]
  refine (rxSegbuf_stored (t := s.writeBytes .rxSegbuf 0 d) hd.1 rfl rfl).2 sp x ?_
  by_cases hsp : sp = .rxSegbuf
  · exact .inr (Nat.not_lt.mp fun hx => hseg ⟨hsp, hx⟩)
  · exact .inl hsp

theorem readBytes_delivered_rxSegbuf (hd : Valid d) : (s.delivered d).readBytes .rxSegbuf 0 576 = d := by
  have hmem : (s.delivered d).mem.get .rxSegbuf = (s.writeBytes .rxSegbuf 0 d).mem.get .rxSegbuf := by
    rw [mem_delivered]
    rfl
  exact (State.readBytes_congr hmem (resets_delivered s d) 0 576).trans (readBytes_rxSegbuf s hd.1)

/-- The receiver's registers after a delivery (R385, R388). -/
theorem rx_delivered (hs : s.rx.state = .receiving) (d : Datagram) : (s.delivered d).rx = { s.rx with
    state := if num d 14 = 0 then .receiving else .done
    bytes := sat32 (s.rx.bytes.toNat + trueLength d)
    segs := sat32 (s.rx.segs.toNat + 1)
    lastAck := (decodeSeg d).ackNumber } := by
  rw [← toNat_payloadLength_decodeSeg, ← hs]
  by_cases hf : num d 14 = 0
  · rw [delivered_of_not_fin hf, if_pos hf]
    rfl
  · rw [delivered_of_fin hf, if_neg hf]
    rfl

/-- The record of a delivery, with the fin flag as a number (R387). -/
theorem rxRecord_decodeSeg (d : Datagram) (now : DWord) : rxRecord (decodeSeg d) now =
    { kind := 2, timestamp := now, seq := (decodeSeg d).sequenceNumber, ack := (decodeSeg d).ackNumber,
      fin := if num d 14 = 0 then 0 else 1, aux := (decodeSeg d).destPort ++ (decodeSeg d).sourcePort } := by
  rw [rxRecord, fin_decodeSeg]
  by_cases hf : num d 14 = 0
  · rw [decide_eq_false (not_not.mpr hf), if_pos hf, cond_false]
  · rw [decide_eq_true hf, if_neg hf, cond_true]

/-- The whole state after a delivery, but for the memories. -/
theorem delivered_eq (hs : s.rx.state = .receiving) (d : Datagram) : s.delivered d = { s with
    mem := (s.delivered d).mem
    status := if num d 14 = 0 then s.status else s.status ||| 0x04#8
    rx := { s.rx with
      state := if num d 14 = 0 then .receiving else .done
      bytes := sat32 (s.rx.bytes.toNat + trueLength d)
      segs := sat32 (s.rx.segs.toNat + 1)
      lastAck := (decodeSeg d).ackNumber }
    atx := s.atx ++ [(decodeSeg d).ackNumber]
    log := s.log ++ [{
      kind := 2, timestamp := s.now, seq := (decodeSeg d).sequenceNumber, ack := (decodeSeg d).ackNumber,
      fin := if num d 14 = 0 then 0 else 1, aux := (decodeSeg d).destPort ++ (decodeSeg d).sourcePort }] } := by
  rw [← rx_delivered hs, ← rxRecord_decodeSeg]
  by_cases hf : num d 14 = 0
  · rw [delivered_of_not_fin hf, if_pos hf]
    rfl
  · rw [delivered_of_fin hf, if_neg hf]
    rfl

/-- RX_BYTES counts a delivery that fits without saturation (R8). -/
theorem toNat_bytes_delivered (hbuild : s.build.wf = true) (hb : s.rx.bytes.toNat + trueLength d ≤ s.build.rxMemSize) :
    (sat32 (s.rx.bytes.toNat + trueLength d)).toNat = s.rx.bytes.toNat + trueLength d := by
  have hsize := (Build.wf_iff s.build).mp hbuild
  exact toNat_sat32_of_le (by omega)

end

/-- Settles O48: the next state is the delivered one, whose fields are numbers of the datagram. -/
theorem validSegmentIsDelivered : Obligations.ValidSegmentIsDelivered := by
  intro s d hbuild hs hd hb
  refine ⟨s.delivered d, sat32 (s.rx.bytes.toNat + trueLength d), sat32 (s.rx.segs.toNat + 1), (decodeSeg d).ackNumber,
    (decodeSeg d).sequenceNumber, (decodeSeg d).destPort ++ (decodeSeg d).sourcePort, ?_, toNat_bytes_delivered hbuild hb,
    toNat_sat32 _, toNat_be32 d 8, toNat_be32 d 4, toNat_decodedPorts d, delivered_eq hs d, readBytes_delivered_rxSegbuf hd,
    fun k hk => readByte_delivered_payload hd hk, fun sp x hseg hmem => readByte_delivered_outside hd hseg hmem⟩
  rw [runEvent, onDrx_of_valid hs hd hb]

end Sys2Proof.Machine
end

section
/-! PROOFS. Datagrams that arrive one after another (R390, R391): RX_MEM gets their payloads in arrival order. -/

namespace Sys2Proof.Machine

open Sys2Proof.Safety

theorem State.readBytes_add (s : State) (sp : Space) (a m n : Nat) :
    s.readBytes sp a (m + n) = s.readBytes sp a m ++ s.readBytes sp (a + m) n := by
  simp only [State.readBytes_eq_map, List.range_add, List.map_append, List.map_map, Function.comp_def, Nat.add_assoc]

theorem State.readBytes_congr_readByte {s t : State} {sp : Space} {a n : Nat}
    (h : ∀ k, k < n → t.readByte sp (a + k) = s.readByte sp (a + k)) : t.readBytes sp a n = s.readBytes sp a n := by
  rw [State.readBytes_eq_map, State.readBytes_eq_map]
  exact List.map_congr_left fun k hk => h k (List.mem_range.mp hk)

theorem length_payload {d : Datagram} (hd : Valid d) : (payload d).length = trueLength d :=
  length_payloadOf hd.1 hd.2.2

/-- Between s and t the receiver has delivered the datagrams ds, in this order, and dropped none. -/
structure Receives (s : State) (ds : List Datagram) (t : State) : Prop where
  bytes : t.rx.bytes.toNat = s.rx.bytes.toNat + (ds.map trueLength).sum
  stream : t.readBytes .rxMem s.rx.bytes.toNat (ds.map trueLength).sum = ds.flatMap payload
  earlier : ∀ a, a < s.rx.bytes.toNat → t.readByte .rxMem a = s.readByte .rxMem a
  atx : t.atx.map BitVec.toNat = s.atx.map BitVec.toNat ++ ds.map (fun d => num32 d 8)
  segs : t.rx.segs.toNat = min (s.rx.segs.toNat + ds.length) 0xFFFFFFFF
  dropCksum : t.rx.dropCksum = s.rx.dropCksum
  dropMalf : t.rx.dropMalf = s.rx.dropMalf

theorem Receives.nil (s : State) : Receives s [] s where
  bytes := rfl
  stream := State.readBytes_eq_map s .rxMem _ 0
  earlier _ _ := rfl
  atx := (List.append_nil _).symm
  segs := (Nat.min_eq_left (Nat.le_of_lt_succ s.rx.segs.isLt)).symm
  dropCksum := rfl
  dropMalf := rfl

/-- What is delivered later leaves in RX_MEM what was delivered before. -/
theorem Receives.trans {s t u : State} {ds es : List Datagram} (h : Receives s ds t) (h' : Receives t es u) :
    Receives s (ds ++ es) u where
  bytes := by rw [h'.bytes, h.bytes, List.map_append, List.sum_append, Nat.add_assoc]
  stream := by
    have hkept : u.readBytes .rxMem s.rx.bytes.toNat (ds.map trueLength).sum =
        t.readBytes .rxMem s.rx.bytes.toNat (ds.map trueLength).sum :=
      State.readBytes_congr_readByte fun k hk => h'.earlier _ (by rw [h.bytes]; omega)
    rw [List.map_append, List.sum_append, State.readBytes_add, hkept, h.stream, ← h.bytes, h'.stream, List.flatMap_append]
  earlier a ha := (h'.earlier a (by rw [h.bytes]; omega)).trans (h.earlier a ha)
  atx := by rw [h'.atx, h.atx, List.map_append, List.append_assoc]
  segs := by
    have hfirst := h.segs
    have hsecond := h'.segs
    rw [List.length_append]
    omega
  dropCksum := h'.dropCksum.trans h.dropCksum
  dropMalf := h'.dropMalf.trans h.dropMalf

section
variable {s : State} {d : Datagram}

theorem readBytes_delivered_rxMem (hd : Valid d) :
    (s.delivered d).readBytes .rxMem s.rx.bytes.toNat (trueLength d) = payload d := by
  apply List.ext_getElem
  · rw [State.length_readBytes, length_payload hd]
  · intro k hread hpayload
    have hk : k < trueLength d := by rwa [State.length_readBytes] at hread
    calc ((s.delivered d).readBytes .rxMem s.rx.bytes.toNat (trueLength d))[k]
        = ((s.delivered d).readBytes .rxMem s.rx.bytes.toNat (trueLength d)).getD k 0 :=
          (List.getD_eq_getElem _ 0 hread).symm
      _ = (s.delivered d).readByte .rxMem (s.rx.bytes.toNat + k) := getD_readBytes _ _ _ hk
      _ = d.getD (20 + k) 0 := readByte_delivered_payload hd hk
      _ = (payload d).getD k 0 := (getD_payloadOf d hk).symm
      _ = (payload d)[k] := List.getD_eq_getElem _ 0 hpayload

/-- One delivery. -/
theorem receives_delivered (hbuild : s.build.wf = true) (hs : s.rx.state = .receiving) (hd : Valid d)
    (hb : s.rx.bytes.toNat + trueLength d ≤ s.build.rxMemSize) : Receives s [d] (s.delivered d) where
  bytes := by
    rw [rx_delivered hs]
    exact toNat_bytes_delivered hbuild hb
  stream := by
    rw [List.flatMap_singleton]
    exact readBytes_delivered_rxMem hd
  earlier a ha := readByte_delivered_outside hd (by simp) (by omega)
  atx := by
    rw [atx_delivered, List.map_append]
    exact congrArg (fun n => s.atx.map BitVec.toNat ++ [n]) (toNat_be32 d 8)
  segs := by
    rw [rx_delivered hs]
    exact toNat_sat32 _
  dropCksum := by rw [rx_delivered hs]
  dropMalf := by rw [rx_delivered hs]

end

/-- Every valid datagram that fits is delivered while none before it is a FIN (R390, R391). -/
theorem receives_afterEvents {s : State} {ds : List Datagram} (hbuild : s.build.wf = true)
    (hs : ds ≠ [] → s.rx.state = .receiving) (hvalid : ∀ d ∈ ds, Valid d) (hfin : ∀ d ∈ ds.dropLast, num d 14 = 0)
    (hroom : s.rx.bytes.toNat + (ds.map trueLength).sum ≤ s.build.rxMemSize) :
    Receives s ds (afterEvents (ds.map Event.drx) s) := by
  induction ds generalizing s with
  | nil => exact .nil s
  | cons d ds ih =>
    have hrec : s.rx.state = .receiving := hs (List.cons_ne_nil d ds)
    have hd : Valid d := hvalid d List.mem_cons_self
    rw [List.map_cons, List.sum_cons] at hroom
    have hb : s.rx.bytes.toNat + trueLength d ≤ s.build.rxMemSize := by omega
    have hone := receives_delivered hbuild hrec hd hb
    have hstep : afterEvents ((d :: ds).map Event.drx) s = afterEvents (ds.map Event.drx) (s.delivered d) :=
      congrArg (afterEvents _) (onDrx_of_valid hrec hd hb)
    rw [hstep]
    refine hone.trans (ih ((build_delivered s d).symm ▸ hbuild) (fun hne => ?_) (fun x hx => hvalid x (List.mem_cons_of_mem d hx))
      (fun x hx => hfin x ?_) ?_)
    · have hmore : num d 14 = 0 := hfin d (by rw [List.dropLast_cons_of_ne_nil hne]; exact List.mem_cons_self)
      rw [rx_delivered hrec, if_pos hmore]
    · rw [List.dropLast_cons_of_ne_nil (List.ne_nil_of_mem (List.mem_of_mem_dropLast hx))]
      exact List.mem_cons_of_mem d hx
    · rw [hone.bytes, build_delivered]
      simpa [Nat.add_assoc] using hroom

/-- Settles O49: the conjuncts are those of Receives. -/
theorem receptionConcatenatesPayloads : Obligations.ReceptionConcatenatesPayloads := by
  intro s ds hbuild hs hvalid hfin hroom
  have h := receives_afterEvents hbuild (fun _ => hs) hvalid hfin hroom
  exact ⟨_, rfl, h.bytes, h.stream, h.earlier, h.atx, h.segs, h.dropCksum, h.dropMalf⟩

end Sys2Proof.Machine
end

section
/-! PROOFS. A block looped back to itself over a perfect channel (R392, R484): each round trip carries one segment of the input
stream to RX_MEM. -/

namespace Sys2Proof.Machine

open Sys2Proof.Safety

/-! ## RETX_CNT never returns to 0 (R321) -/

theorem retxCnt_retransmit_ne_zero (s : State) : s.retransmit.tx.retxCnt ≠ 0 := by
  intro h
  have hcnt : (sat32 (s.tx.retxCnt.toNat + 1)).toNat = 0 := congrArg BitVec.toNat h
  rw [toNat_sat32] at hcnt
  omega

theorem retxCnt_of_onTick {s : State} (h : (onTick s).tx.retxCnt = 0) : s.tx.retxCnt = 0 := by
  by_cases hs : s.tx.state = .sending
  · obtain ⟨-, e⟩ | ⟨-, -, e⟩ | ⟨-, -, e⟩ := onTick_cases s hs <;> rw [e] at h
    · exact h
    · exact h
    · exact absurd h (retxCnt_retransmit_ne_zero _)
  · rw [onTick_of_not_sending hs] at h
    exact h

theorem retxCnt_of_ticks {n : Nat} {s : State} (h : (afterEvents (List.replicate n Event.tick) s).tx.retxCnt = 0) :
    s.tx.retxCnt = 0 := by
  induction n generalizing s with
  | zero => exact h
  | succ n ih => exact retxCnt_of_onTick (ih h)

theorem retxCnt_onArx (tok : Word) (s : State) : (onArx tok s).tx.retxCnt = s.tx.retxCnt := by
  obtain ⟨-, e⟩ | ⟨-, -, e⟩ | ⟨-, -, e⟩ := onArx_cases tok s <;> rw [e] <;> rfl

/-- The state in which the datagram of a round trip arrives. -/
def atDatagram (gap : Nat × Nat) (s : State) : State := afterEvents (List.replicate gap.1 Event.tick) s

/-- The state that the datagram of a round trip leaves. -/
def afterDatagram (gap : Nat × Nat) (s : State) : State := onDrx ((atDatagram gap s).dtx.getLastD []) (atDatagram gap s)

/-- The state in which the token of a round trip arrives. -/
def atToken (gap : Nat × Nat) (s : State) : State := afterEvents (List.replicate gap.2 Event.tick) (afterDatagram gap s)

theorem roundTrip_eq (gap : Nat × Nat) (s : State) : roundTrip gap s = onArx ((atToken gap s).atx.getLastD 0) (atToken gap s) :=
  rfl

theorem retxCnt_atToken (gap : Nat × Nat) (s : State) : (roundTrip gap s).tx.retxCnt = (atToken gap s).tx.retxCnt :=
  retxCnt_onArx _ _

theorem retxCnt_of_atToken {gap : Nat × Nat} {s : State} (h : (atToken gap s).tx.retxCnt = 0) :
    (atDatagram gap s).tx.retxCnt = 0 := by
  rw [← (senderKept_onDrx ((atDatagram gap s).dtx.getLastD []) (atDatagram gap s)).tx]
  exact retxCnt_of_ticks h

theorem retxCnt_of_roundTrips {gaps : List (Nat × Nat)} {s : State}
    (h : (gaps.foldl (fun u g => roundTrip g u) s).tx.retxCnt = 0) : s.tx.retxCnt = 0 := by
  induction gaps generalizing s with
  | nil => exact h
  | cons gap gaps ih => exact retxCnt_of_ticks (retxCnt_of_atToken ((retxCnt_atToken gap s).symm.trans (ih h)))

/-! ## The wait for a token -/

/-- In u segment k of the input of s awaits its token after one transmission, and TX_MEM still holds that input. -/
structure SegmentWaits (s : State) (k : Nat) (u : State) : Prop where
  sending : u.tx.state = .sending
  awaiting : Awaiting u
  cur : u.tx.cur.toNat = k
  firstTry : u.tx.retryCur = 0
  cfg : u.cfg = s.cfg
  build : u.build = s.build
  source : ∀ a, u.readByte .txMem a = s.readByte .txMem a

/-- v is u at a later time, with no other change. -/
def Later (u v : State) : Prop := ∃ now elapsed, v = { u with now := now, tx := { u.tx with elapsed := elapsed } }

section
variable {s u v : State} {k : Nat}

theorem SegmentWaits.of_kept (h : SegmentWaits s k u) (hk : SenderKept u v) : SegmentWaits s k v where
  sending := by rw [hk.tx, h.sending]
  awaiting := hk.awaiting h.awaiting
  cur := by rw [hk.tx, h.cur]
  firstTry := by rw [hk.tx, h.firstTry]
  cfg := hk.cfg.trans h.cfg
  build := hk.build.trans h.build
  source a := (State.readByte_congr (sp := .txMem) hk.txMem hk.resets a).trans (h.source a)

theorem SegmentWaits.lt (h : SegmentWaits s k u) : k < segCount s.cfg.txLen.toNat := by
  rw [← h.cur, ← h.cfg, ← h.awaiting.nseg_eq]
  exact h.awaiting.cur_lt

theorem SegmentWaits.toNat_nseg (h : SegmentWaits s k u) : u.tx.nseg.toNat = segCount s.cfg.txLen.toNat := by
  rw [h.awaiting.nseg_eq, h.cfg]

theorem SegmentWaits.toNat_ack (h : SegmentWaits s k u) : u.tx.ack.toNat = segAck s.cfg.txLen.toNat k := by
  rw [h.awaiting.ack_eq, h.cfg, h.cur]

theorem SegmentWaits.segAck_lt (h : SegmentWaits s k u) : segAck u.cfg.txLen.toNat k < 2 ^ 32 := by
  rw [h.cfg, ← h.toNat_ack]
  exact u.tx.ack.isLt

theorem SegmentWaits.succ_lt (h : SegmentWaits s k u) : k + 1 < 2 ^ 32 := by
  have hnseg := u.tx.nseg.isLt
  rw [h.toNat_nseg] at hnseg
  have hlt := h.lt
  omega

/-- A TICK without a retransmission is part of the wait: a sender that has not retried does not give up either (R320, R322). -/
theorem SegmentWaits.tick (h : SegmentWaits s k u) (hr : (onTick u).tx.retxCnt = 0) :
    SegmentWaits s k (onTick u) ∧ Later u (onTick u) := by
  obtain ⟨ht, e⟩ | ⟨-, hused, -⟩ | ⟨-, -, e⟩ := onTick_cases u h.sending
  · rw [e]
    exact ⟨⟨h.sending, awaiting_wait h.awaiting ht, h.cur, h.firstTry, h.cfg, h.build, h.source⟩, _, _, rfl⟩
  · obtain ⟨hne, hle⟩ := (State.retriesUsedUp_iff u).mp hused
    rw [h.firstTry] at hle
    exact absurd (BitVec.eq_of_toNat_eq (Nat.le_zero.mp hle)) hne
  · rw [e] at hr
    exact absurd hr (retxCnt_retransmit_ne_zero _)

theorem Later.trans {w : State} (h : Later u v) (h' : Later v w) : Later u w := by
  obtain ⟨_, _, rfl⟩ := h
  obtain ⟨now, elapsed, rfl⟩ := h'
  exact ⟨now, elapsed, rfl⟩

theorem SegmentWaits.ticks {n : Nat} (h : SegmentWaits s k u)
    (hr : (afterEvents (List.replicate n Event.tick) u).tx.retxCnt = 0) :
    SegmentWaits s k (afterEvents (List.replicate n Event.tick) u) ∧ Later u (afterEvents (List.replicate n Event.tick) u) := by
  induction n generalizing u with
  | zero => exact ⟨h, u.now, u.tx.elapsed, rfl⟩
  | succ n ih =>
    obtain ⟨hone, hlater⟩ := h.tick (retxCnt_of_ticks (n := n) hr)
    obtain ⟨hall, hlater'⟩ := ih hone hr
    exact ⟨hall, hlater.trans hlater'⟩

end

/-! ## The segment on its way -/

section
variable {s : State} {k : Nat}

theorem trueLength_segment (hack : segAck s.cfg.txLen.toNat k < 2 ^ 32) :
    trueLength (s.segment k) = segLen s.cfg.txLen.toNat k := by
  have hwire := wireSegment_segment s hack
  rw [trueLength, hwire.sequence, hwire.acknowledge]
  rw [segAck] at hack ⊢
  omega

/-- What TRANSMIT puts on DTX is valid at the receiver (R376). -/
theorem valid_segment (hack : segAck s.cfg.txLen.toNat k < 2 ^ 32) : Valid (s.segment k) :=
  ⟨length_segment s k, (verify_iff (length_segment s k)).mpr (wireSegment_segment s hack).checksum,
    (trueLength_segment hack).trans_le (segLen_le _ k)⟩

theorem ackNumber_segment (hack : segAck s.cfg.txLen.toNat k < 2 ^ 32) :
    (decodeSeg (s.segment k)).ackNumber.toNat = segAck s.cfg.txLen.toNat k :=
  (toNat_be32 _ 8).trans (wireSegment_segment s hack).acknowledge

/-- Only the last segment is a FIN (R303). -/
theorem num_fin_segment (hack : segAck s.cfg.txLen.toNat k < 2 ^ 32) :
    num (s.segment k) 14 = 0 ↔ k + 1 ≠ s.tx.nseg.toNat := by
  rw [(wireSegment_segment s hack).finByte, Ne, ← segFin_iff]
  cases segFin s.tx.nseg.toNat k <;> simp

theorem getD_segment (hack : segAck s.cfg.txLen.toNat k < 2 ^ 32) {j : Nat} (hj : j < segLen s.cfg.txLen.toNat k) :
    (s.segment k).getD (20 + j) 0 = s.readByte .txMem (segSeq k + j) := by
  have hlen := segLen_le s.cfg.txLen.toNat k
  rw [(wireSegment_segment s hack).body j (by omega), if_pos hj]

end

/-! ## The round trip -/

/-- In u the receiver has delivered k segments, the first n bytes of the input of s. -/
structure Received (s : State) (k n : Nat) (u : State) : Prop where
  segs : u.rx.segs.toNat = k
  bytes : u.rx.bytes.toNat = n
  stream : ∀ a, a < n → u.readByte .rxMem a = s.readByte .txMem a

/-- Segment k is the newest datagram on DTX, and the segments before it are delivered. -/
structure InFlight (s : State) (k : Nat) (u : State) : Prop extends SegmentWaits s k u where
  newest : u.dtx.getLastD [] = u.segment k
  receiving : u.rx.state = .receiving
  received : Received s k (segSeq k) u

/-- Segment k is delivered, and its token is the newest on ATX. -/
structure Answered (s : State) (k : Nat) (u : State) : Prop extends SegmentWaits s k u where
  newest : u.atx.getLastD 0 = u.tx.ack
  rxState : u.rx.state = if k + 1 = segCount s.cfg.txLen.toNat then .done else .receiving
  received : Received s (k + 1) (segAck s.cfg.txLen.toNat k) u

/-- Both units are done, and the whole input of s is delivered. -/
structure Transferred (s u : State) : Prop where
  txDone : u.tx.state = .done
  rxDone : u.rx.state = .done
  received : Received s (segCount s.cfg.txLen.toNat) s.cfg.txLen.toNat u

section
variable {s u : State} {k : Nat}

theorem InFlight.ticks {n : Nat} (h : InFlight s k u) (hr : (afterEvents (List.replicate n Event.tick) u).tx.retxCnt = 0) :
    InFlight s k (afterEvents (List.replicate n Event.tick) u) := by
  obtain ⟨hw, now, elapsed, e⟩ := h.toSegmentWaits.ticks hr
  rw [e] at hw ⊢
  exact ⟨hw, h.newest, h.receiving, ⟨h.received.segs, h.received.bytes, h.received.stream⟩⟩

theorem Answered.ticks {n : Nat} (h : Answered s k u) (hr : (afterEvents (List.replicate n Event.tick) u).tx.retxCnt = 0) :
    Answered s k (afterEvents (List.replicate n Event.tick) u) := by
  obtain ⟨hw, now, elapsed, e⟩ := h.toSegmentWaits.ticks hr
  rw [e] at hw ⊢
  exact ⟨hw, h.newest, h.rxState, ⟨h.received.segs, h.received.bytes, h.received.stream⟩⟩

/-- With the segment in flight RX_BYTES reaches its acknowledgment number. -/
theorem InFlight.bytes_add (h : InFlight s k u) :
    u.rx.bytes.toNat + trueLength (u.segment k) = segAck s.cfg.txLen.toNat k := by
  rw [h.received.bytes, trueLength_segment h.segAck_lt, h.cfg, segAck]

/-- The segment in flight fits, since it ends inside the input (R384). -/
theorem InFlight.room (h : InFlight s k u) (hfit : s.cfg.txLen.toNat ≤ s.build.rxMemSize) :
    u.rx.bytes.toNat + trueLength (u.segment k) ≤ u.build.rxMemSize := by
  rw [h.bytes_add, h.build]
  exact (segAck_le h.lt).trans hfit

/-- Its delivery adds the segment's bytes of TX_MEM to those received (R385). -/
theorem InFlight.received_delivered (h : InFlight s k u) (hbuild : s.build.wf = true)
    (hfit : s.cfg.txLen.toNat ≤ s.build.rxMemSize) :
    Received s (k + 1) (segAck s.cfg.txLen.toNat k) (u.delivered (u.segment k)) := by
  have hvalid := valid_segment h.segAck_lt
  have hone := receives_delivered (h.build.symm ▸ hbuild) h.receiving hvalid (h.room hfit)
  refine ⟨?_, ?_, fun a ha => ?_⟩
  · have hsucc := h.succ_lt
    rw [hone.segs, h.received.segs, List.length_singleton, Nat.min_eq_left (by omega)]
  · rw [hone.bytes, ← h.bytes_add, List.map_singleton, List.sum_singleton]
  · by_cases hold : a < segSeq k
    · rw [hone.earlier a (by rwa [h.received.bytes])]
      exact h.received.stream a hold
    · obtain ⟨j, rfl⟩ := Nat.exists_eq_add_of_le (Nat.not_lt.mp hold)
      have hj : j < segLen u.cfg.txLen.toNat k := by
        rw [h.cfg]
        exact Nat.lt_of_add_lt_add_left ha
      have hbyte := readByte_delivered_payload (s := u) hvalid ((trueLength_segment h.segAck_lt).symm ▸ hj)
      rwa [h.received.bytes, getD_segment h.segAck_lt hj, h.source] at hbyte

/-- The segment in flight arrives and is answered with its acknowledgment number (R386). -/
theorem InFlight.arrives (h : InFlight s k u) (hbuild : s.build.wf = true)
    (hfit : s.cfg.txLen.toNat ≤ s.build.rxMemSize) : Answered s k (onDrx (u.dtx.getLastD []) u) := by
  have hkept := senderKept_onDrx (u.segment k) u
  rw [h.newest]
  rw [onDrx_of_valid h.receiving (valid_segment h.segAck_lt) (h.room hfit)] at hkept ⊢
  refine ⟨h.toSegmentWaits.of_kept hkept, ?_, ?_, h.received_delivered hbuild hfit⟩
  · rw [atx_delivered, List.getLastD_concat, hkept.tx]
    exact BitVec.eq_of_toNat_eq (by rw [ackNumber_segment h.segAck_lt, h.cfg, h.toNat_ack])
  · rw [rx_delivered h.receiving]
    simp only [num_fin_segment h.segAck_lt, h.toNat_nseg, ite_not]

/-- The token of the last segment ends the transfer (R313). -/
theorem Answered.last (h : Answered s k u) (hl : k + 1 = segCount s.cfg.txLen.toNat) :
    Transferred s (onArx (u.atx.getLastD 0) u) := by
  have hcur : u.tx.cur.toNat + 1 = u.tx.nseg.toNat := by rw [h.cur, h.toNat_nseg, hl]
  have hreceived := h.received
  rw [onArx_of_accepted h.sending (.inr h.newest), accept_of_last hcur]
  rw [hl, show k = segCount s.cfg.txLen.toNat - 1 by omega, segAck_last] at hreceived
  exact ⟨rfl, h.rxState.trans (if_pos hl), hreceived.segs, hreceived.bytes, hreceived.stream⟩

/-- The token of any other segment sends the next one (R312). -/
theorem Answered.next (h : Answered s k u) (hbuild : s.build.wf = true) (hl : k + 1 ≠ segCount s.cfg.txLen.toNat) :
    InFlight s (k + 1) (onArx (u.atx.getLastD 0) u) := by
  have hlt := h.lt
  have hcur : u.tx.cur.toNat + 1 ≠ u.tx.nseg.toNat := by rwa [h.cur, h.toNat_nseg]
  have haw := awaiting_acceptNext (h.build.symm ▸ hbuild) h.awaiting hcur
  have hreceived := h.received
  have hread (sp : Space) (hsp : sp ≠ .txSegbuf) (a : Nat) :
      (u.sampleAndLog.transmit (k + 1)).readByte sp a = u.readByte sp a :=
    (State.readByte_transmit _ _ sp a (.inl hsp)).trans (State.readByte_congr rfl rfl a)
  rw [onArx_of_accepted h.sending (.inr h.newest), accept_of_not_last hcur, h.cur]
  rw [h.cur] at haw
  rw [segAck_eq_segSeq_succ (by omega)] at hreceived
  refine ⟨⟨rfl, haw, toNat_word h.succ_lt, rfl, h.cfg, h.build, fun a => ?_⟩, ?_,
    h.rxState.trans (if_neg hl), hreceived.segs, hreceived.bytes, fun a ha => ?_⟩
  · exact (hread .txMem (by decide) a).trans (h.source a)
  · rw [State.transmit_dtx, List.getLastD_concat]
    exact (State.segment_congr rfl rfl rfl rfl _).symm
  · exact (hread .rxMem (by decide) a).trans (hreceived.stream a ha)

/-- A round trip without a retransmission ends the transfer or puts the next segment in flight. -/
theorem InFlight.afterRoundTrip (h : InFlight s k u) (hbuild : s.build.wf = true) (hfit : s.cfg.txLen.toNat ≤ s.build.rxMemSize)
    {gap : Nat × Nat} (hr : (roundTrip gap u).tx.retxCnt = 0) :
    (k + 1 = segCount s.cfg.txLen.toNat ∧ Transferred s (roundTrip gap u)) ∨ InFlight s (k + 1) (roundTrip gap u) := by
  rw [retxCnt_atToken] at hr
  have harrives : Answered s k (afterDatagram gap u) := (h.ticks (retxCnt_of_atToken hr)).arrives hbuild hfit
  have htoken : Answered s k (atToken gap u) := harrives.ticks hr
  rw [roundTrip_eq]
  by_cases hl : k + 1 = segCount s.cfg.txLen.toNat
  · exact .inl ⟨hl, htoken.last hl⟩
  · exact .inr (htoken.next hbuild hl)

/-- As many round trips as there are segments left. -/
theorem InFlight.afterRoundTrips {gaps : List (Nat × Nat)} (h : InFlight s k u) (hbuild : s.build.wf = true)
    (hfit : s.cfg.txLen.toNat ≤ s.build.rxMemSize) (hn : k + gaps.length = segCount s.cfg.txLen.toNat)
    (hr : (gaps.foldl (fun u g => roundTrip g u) u).tx.retxCnt = 0) :
    Transferred s (gaps.foldl (fun u g => roundTrip g u) u) := by
  induction gaps generalizing k u with
  | nil => exact absurd hn h.lt.ne
  | cons gap gaps ih =>
    rw [List.length_cons] at hn
    obtain ⟨hl, hdone⟩ | hnext := h.afterRoundTrip hbuild hfit (retxCnt_of_roundTrips hr)
    · obtain rfl : gaps = [] := List.eq_nil_of_length_eq_zero (by omega)
      exact hdone
    · exact ih hnext (by omega) hr

end

/-- The state that RX_START leaves in IDLE (R370). -/
def State.listening (s : State) : State := { s with rx := { RxUnit.reset with state := .receiving } }

theorem exec_rxStart_of_idle {s : State} (h : s.rx.state = .idle) : exec .rxStart s = .next s.listening :=
  (rxStartBeginsReception.2 s).2 h

/-- RX_START and TX_START put segment 0 in flight. -/
theorem inFlight_start {s : State} (hbuild : s.build.wf = true) (hfit : s.cfg.txLen.toNat ≤ s.build.txMemSize)
    (hw : s.cfg.window = 1) : InFlight s 0 (s.listening.prepared.transmit 0) := by
  refine ⟨⟨rfl, awaiting_start (s := s.listening) hbuild hfit hw, rfl, rfl, rfl, rfl, fun a => ?_⟩, ?_, rfl, rfl, rfl,
    fun a ha => absurd ha (Nat.not_lt_zero a)⟩
  · exact (State.readByte_transmit _ 0 .txMem a (.inl (by decide))).trans (State.readByte_congr rfl rfl a)
  · rw [State.transmit_dtx, List.getLastD_concat]
    exact (State.segment_congr rfl rfl rfl rfl 0).symm

/-- Settles O58: the two starts put segment 0 in flight, and each round trip delivers one segment. -/
theorem perfectChannelDeliversTheStream : Obligations.PerfectChannelDeliversTheStream := by
  intro s s1 s2 gaps hbuild htx hrx hw hfitTx hfitRx hstart1 hstart2 hn hr
  cases hstart1.symm.trans (exec_rxStart_of_idle hrx)
  cases hstart2.symm.trans (exec_txStart_of_fits (s := s.listening) htx hfitTx hw)
  have hflight := inFlight_start hbuild hfitTx hw
  have hdone := hflight.afterRoundTrips hbuild hfitRx (by rw [Nat.zero_add, hn]; exact hflight.toNat_nseg) hr
  exact ⟨_, rfl, hdone.txDone, hdone.rxDone, BitVec.eq_of_toNat_eq hdone.received.bytes,
    BitVec.eq_of_toNat_eq (hdone.received.segs.trans hflight.toNat_nseg.symm), hdone.received.stream⟩

end Sys2Proof.Machine
end

section
/-! PROOFS. Commands and control registers (spec/44_control.md): what a command does where it is legal and where it is not, NOP, and
what a write of STATUS and of each RW and RW-L register leaves. -/

namespace Sys2Proof.Machine

open Sys2Proof.Safety

/-! ## Legal and illegal commands (R432, R433) -/

/-- What a command may leave where it is legal (R433): the units, CK_BUF and TX_SEGBUF, the DTX trace, and STATUS but for
CMD_ERR. -/
inductive LegalEffect (s : State) : State → Prop where
  | mk {tx : TxUnit} {rtt : RttUnit} {rx : RxUnit} {ck : CkUnit} {ckBuf txSegbuf : Memory} {dtx : List Datagram} {status : Byte}
      (h : status.getLsbD 6 = s.status.getLsbD 6) :
      LegalEffect s { s with
        tx := tx, rtt := rtt, rx := rx, ck := ck, dtx := dtx, status := status
        mem := { s.mem with ckBuf := ckBuf, txSegbuf := txSegbuf } }

/-- A TX fault sets STATUS.TX_FAIL, which is not CMD_ERR (R466). -/
theorem legalEffect_startFault (s : State) (c : TxCause) : LegalEffect s (s.clearStats.raiseTx c) := by
  have hmask : (StatusBit.txFail.mask).getLsbD 6 = false := by decide
  have hstatus : (s.status ||| StatusBit.txFail.mask).getLsbD 6 = s.status.getLsbD 6 := by
    rw [BitVec.getLsbD_or, hmask, Bool.or_false]
  exact .mk hstatus

theorem execTxStart_legalEffect {s : State} (h : s.tx.state = .building) : ∃ t, execTxStart s = .next t ∧ LegalEffect s t := by
  obtain ⟨hn, -⟩ | ⟨-, -, e⟩ | ⟨-, -, -, e⟩ | ⟨-, -, -, e⟩ := execTxStart_cases s
  · exact absurd h hn
  · exact ⟨_, e, legalEffect_startFault s .input⟩
  · exact ⟨_, e, legalEffect_startFault s .window⟩
  · exact ⟨_, e, .mk rfl⟩

/-- A command completes where it is legal, with the effect of its own rule (R433). -/
theorem exec_legalEffect {i : Instr} {s : State} (h : Legal s i) : ∃ t, exec i s = .next t ∧ LegalEffect s t := by
  cases i with
  | nop => exact ⟨s, rfl, .mk rfl⟩
  | txStart => exact execTxStart_legalEffect h
  | txClear => exact ⟨s.leaveTx, if_neg h, .mk rfl⟩
  | rxStart => exact ⟨s.listening, exec_rxStart_of_idle h, .mk rfl⟩
  | rxClear => exact ⟨s.leaveRx, if_neg h, .mk rfl⟩
  | ckCompute => exact ⟨_, rfl, .mk rfl⟩
  | ckVerify =>
    by_cases hl : s.ck.len = 576
    · exact ⟨_, exec_ckVerify_of_len hl, .mk rfl⟩
    · exact ⟨_, exec_ckVerify_of_len_ne hl, .mk rfl⟩
  | segDecode =>
    by_cases hl : s.ck.len = 576
    · exact ⟨_, exec_segDecode_of_len hl, .mk rfl⟩
    · exact ⟨_, exec_segDecode_of_len_ne hl, .mk rfl⟩
  | segEncode => exact ⟨_, exec_segEncode_of_le h, .mk rfl⟩
  | rttInit => exact ⟨s.rttInitState, if_neg h, .mk rfl⟩
  | rttSample => exact ⟨s.sampled, exec_rttSample_of_not_sending h, .mk rfl⟩

/-- Settles O20: no field the statement lists is among those a legal command may change. -/
theorem legalUseRaisesNoCommandError : Obligations.LegalUseRaisesNoCommandError := by
  intro i s h
  obtain ⟨_, e, ⟨hstatus⟩⟩ := exec_legalEffect h
  exact ⟨_, e, rfl, hstatus, rfl, rfl, rfl, rfl, rfl, rfl, rfl, rfl, rfl, rfl, rfl, rfl, rfl, rfl, rfl, rfl⟩

/-- Where a command is not legal, its meaning is the command error of its rule (R433). -/
theorem exec_of_not_legal {i : Instr} {s : State} (h : ¬ Legal s i) : exec i s = .next (s.cmdError (errorCause i)) := by
  cases i with
  | nop | ckCompute | ckVerify | segDecode => exact absurd trivial h
  | txStart | rxStart => exact if_pos h
  | txClear | rxClear | rttInit | rttSample => exact if_pos (not_not.mp h)
  | segEncode => exact if_pos (Nat.not_le.mp h)

/-- Settles O19: CmdError sets STATUS[6] and CMD_CAUSE only (R463). -/
theorem illegalUseOnlyReports : Obligations.IllegalUseOnlyReports :=
  fun _ _ h => exec_of_not_legal h

/-! ## NOP (R440) -/

/-- Settles O21: 0x00000000 is the first row of the command map, and 0x00000100 has a reserved bit set (R165). -/
theorem nopChangesNothing : Obligations.NopChangesNothing := by
  refine ⟨decode_encode .nop, fun _ => rfl, fun i h => ?_⟩
  obtain ⟨hupper, -⟩ := mem_opcodeTable_of_decode h
  exact absurd hupper (by decide)

/-! ## The write of STATUS (R441) -/

theorem getLsbD_clearStatus (s : State) (v : Word) {i : Nat} (hi : i < 8) :
    (s.clearStatus v).status.getLsbD i = (s.status.getLsbD i && !v.getLsbD i) := by
  simp [hi]

theorem clearStatus_of_low_zero (s : State) {v : Word} (h : v.extractLsb' 0 8 = 0) : (s.clearStatus v).status = s.status := by
  rw [State.clearStatus_status, h]
  exact BitVec.and_allOnes

/-- Settles O17: the write reaches STATUS, whose byte alone clearStatus changes. -/
theorem statusWriteClearsOnes : Obligations.StatusWriteClearsOnes :=
  fun s v => ⟨(s.clearStatus v).respond .written, hostWrite_reg (addr := 0x00C) (r := .status) rfl (by decide) v, rfl,
    fun _ hi => getLsbD_clearStatus s v hi, clearStatus_of_low_zero s, rfl⟩

/-! ## The writes of the RW and RW-L registers (R442, R443) -/

/-- A write outside the lock stores (R108, R443). -/
theorem writeReg_of_unlocked {s : State} {r : Reg} (h : r.access = .rw ∨ (r.access = .rwl ∧ s.tx.state ≠ .sending))
    (v : Word) : s.writeReg r v = s.storeReg r v := by
  rw [State.writeReg]
  obtain hr | ⟨hr, hs⟩ := h
  · rw [hr]
  · rw [hr]
    exact if_neg hs

/-- A field of a field of a word, taken from the word itself. -/
theorem extractLsb'_extractLsb' {n : Nat} (v : BitVec n) {a k b m : Nat} (h : b + m ≤ k) :
    (v.extractLsb' a k).extractLsb' b m = v.extractLsb' (a + b) m := by
  ext i hi
  have hb : b + i < k := by omega
  simp [hb, Nat.add_assoc]

/-- A mask written field by field keeps or clears each field of a word by itself. -/
theorem and_append_mask {n m : Nat} (v : BitVec (n + m)) (x : BitVec n) (y : BitVec m) :
    v &&& (x ++ y) = (v.extractLsb' m n &&& x) ++ (v.extractLsb' 0 m &&& y) := by
  rw [← BitVec.and_append, BitVec.extractLsb'_append_extractLsb']

theorem extractLsb'_one {n : Nat} (v : BitVec n) (k : Nat) : v.extractLsb' k 1 = bit (v.getLsbD k) := by
  ext i hi
  obtain rfl : i = 0 := by omega
  simp [bit]

theorem and_irqEnMask (v : BitVec (24 + 8)) : v &&& (0#24 ++ BitVec.allOnes 8) = 0#24 ++ v.extractLsb' 0 8 := by
  rw [and_append_mask, BitVec.and_zero, BitVec.and_allOnes]

/-- The fields of CONFIG: reserved, PAD_BYTE, reserved, ACK_CHECK, FIRST_OVR (R52). -/
theorem and_configMask (v : BitVec (16 + 8 + 6 + 1 + 1)) :
    v &&& (0#16 ++ BitVec.allOnes 8 ++ 0#6 ++ BitVec.allOnes 1 ++ BitVec.allOnes 1) =
      0#16 ++ v.extractLsb' 8 8 ++ 0#6 ++ bit (v.getLsbD 1) ++ bit (v.getLsbD 0) := by
  simp only [and_append_mask, BitVec.and_zero, BitVec.and_allOnes, ← extractLsb'_one]
  simp [extractLsb'_extractLsb']

/-- The bits of a word written that a register stores (R442, R443). -/
def Reg.storedBits (r : Reg) : Word := if r = .config then 0x0000FF03 else if r = .irqEn then 0x000000FF else 0xFFFFFFFF

/-- A store is read back in the bits the register stores (R442, R443). -/
theorem regValue_storeReg_self {r : Reg} (h : r.access = .rw ∨ r.access = .rwl) (s : State) (v : Word) :
    (s.storeReg r v).regValue r = v &&& r.storedBits := by
  cases r
  case config => exact (and_configMask v).symm
  case irqEn => exact (and_irqEnMask v).symm
  case window | maxRetry | initRtt | initTo | ports | txLen | rttSampleIn | ckLen | segPorts | segSeq | segAck | segFlags =>
    exact BitVec.and_allOnes.symm
  all_goals simp [Reg.access] at h

/-- A store changes what no other register reads (R443). -/
theorem regValue_storeReg_of_ne {r q : Reg} (h : q ≠ r) (s : State) (v : Word) :
    (s.storeReg r v).regValue q = s.regValue q := by
  cases r
  case config | irqEn | window | maxRetry | initRtt | initTo | ports | txLen | rttSampleIn | ckLen | segPorts | segSeq |
      segAck | segFlags =>
    cases q <;> first | rfl | exact absurd rfl h
  all_goals rfl

theorem storeReg_environment (s : State) (r : Reg) (v : Word) :
    (s.storeReg r v).turn = s.turn ∧ (s.storeReg r v).inputs = s.inputs := by
  cases r <;> exact ⟨rfl, rfl⟩

/-- No register shows the host's answer (log entry 5). -/
theorem regValue_respond (s : State) (a : HostResponse) (q : Reg) : (s.respond a).regValue q = s.regValue q := rfl

theorem Reg.toNat_offset (r : Reg) : (BitVec.ofNat 18 r.offset : HostAddr).toNat = r.offset :=
  Nat.mod_eq_of_lt (r.offset_lt.trans (by decide))

/-- A write to an RW or RW-L register outside the lock stores in it and is answered (R106, R443). -/
theorem step_storeReg {s : State} {rest : List Event} {r : Reg} {v : Word}
    (hin : s.inputs = .host (.write (BitVec.ofNat 18 r.offset) 4 v) :: rest)
    (hr : r.access = .rw ∨ (r.access = .rwl ∧ s.tx.state ≠ .sending)) :
    step s = .next ((State.storeReg { s with inputs := rest } r v).respond .written) := by
  have hcmd : r ≠ .cmd := by
    rintro rfl
    simp [Reg.access] at hr
  rw [step_cons hin, runEvent, hostWrite_reg r.toNat_offset hcmd,
    writeReg_of_unlocked (s := { s with inputs := rest }) hr]

/-- Settles O16: the step is a store in the register, and its answer is read by none. -/
theorem registerWriteReadsBack : Obligations.RegisterWriteReadsBack := by
  intro s rest r v hin hr
  obtain ⟨htx, hrx, hmem, hnow, hdtx, hatx, hlog, hresets, hbuild, -⟩ := storeReg_frame { s with inputs := rest } r v
  obtain ⟨hturn, hinputs⟩ := storeReg_environment { s with inputs := rest } r v
  refine ⟨_, step_storeReg hin hr, ?_, fun q hq => ?_, htx, hrx, hnow, hmem, hdtx, hatx, hlog, hresets, hbuild, hturn,
    hinputs, rfl⟩
  · rw [regValue_respond]
    exact regValue_storeReg_self (hr.imp_right And.left) _ v
  · rw [regValue_respond]
    exact regValue_storeReg_of_ne hq { s with inputs := rest } v

end Sys2Proof.Machine
end

section
/-! PROOFS. Events that occur together, steps that stop nothing, and the independence of the two units (spec/60_exceptions.md): what
each unit does at its own events commutes with any change of the state outside it. -/

namespace Sys2Proof.Machine

open Sys2Proof.Safety

/-! ## The events of one cycle (R476) -/

theorem Cycle.events_of_rst {c : Cycle} (h : c.rst = true) : c.events = [.rst] := by
  rw [Cycle.events, h, cond_true]

/-- Without RST a cycle's events are one list of at most one event for each kind, in the order of R476. -/
theorem Cycle.events_of_not_rst {c : Cycle} (h : c.rst = false) : c.events =
    (c.arx.map Event.arx).toList ++ (c.drx.map Event.drx).toList ++ (c.host.map Event.host).toList ++
      (bif c.tick then [Event.tick] else []) := by
  rw [Cycle.events, h, cond_false]

/-- Each event of a cycle without RST stands in the field of its kind. -/
theorem Cycle.mem_events {c : Cycle} (h : c.rst = false) (e : Event) : e ∈ c.events ↔
    match e with
    | .arx t => c.arx = some t
    | .drx d => c.drx = some d
    | .host a => c.host = some a
    | .tick => c.tick = true
    | .rst => False := by
  have htick : e ∈ (bif c.tick then [Event.tick] else []) ↔ c.tick = true ∧ e = .tick := by
    cases c.tick <;> simp
  rw [Cycle.events_of_not_rst h]
  simp only [List.mem_append, htick, Option.mem_toList, Option.map_eq_some_iff]
  cases e <;> simp

/-- A list of at most one element is in order for any relation. -/
theorem pairwise_toList {α : Type} (R : α → α → Prop) (o : Option α) : o.toList.Pairwise R := by
  cases o with
  | none => exact List.Pairwise.nil
  | some a => exact List.pairwise_singleton R a

/-- The events of a cycle without RST are in the order of R476: each of the four parts has at most one event, and the ranks rise from
part to part. -/
theorem Cycle.pairwise_events {c : Cycle} (h : c.rst = false) :
    c.events.Pairwise (fun e f => eventRank e < eventRank f) := by
  have htick : (bif c.tick then [Event.tick] else []).Pairwise (fun e f => eventRank e < eventRank f) := by
    cases c.tick
    · exact List.Pairwise.nil
    · exact List.pairwise_singleton _ _
  have hrank : ∀ e ∈ (bif c.tick then [Event.tick] else []), e = .tick := by
    cases c.tick <;> simp
  rw [Cycle.events_of_not_rst h]
  simp only [List.pairwise_append, pairwise_toList, htick, List.mem_append, Option.mem_toList,
    Option.map_eq_some_iff, true_and]
  refine ⟨⟨?_, ?_⟩, ?_⟩
  · rintro _ ⟨t, -, rfl⟩ _ ⟨d, -, rfl⟩
    simp [eventRank]
  · rintro _ (⟨t, -, rfl⟩ | ⟨d, -, rfl⟩) _ ⟨a, -, rfl⟩ <;> simp [eventRank]
  · rintro _ ((⟨t, -, rfl⟩ | ⟨d, -, rfl⟩) | ⟨a, -, rfl⟩) f hf <;> simp [hrank f hf, eventRank]

/-- Settles O7: a cycle appends its list of events, which RST makes [RST]. -/
theorem simultaneousEventOrder : Obligations.SimultaneousEventOrder :=
  fun _ c => ⟨c.events, rfl, Cycle.events_of_rst, fun h => ⟨Cycle.pairwise_events h, fun _ => Cycle.mem_events h _,
    fun _ => Cycle.mem_events h _, fun _ => Cycle.mem_events h _, Cycle.mem_events h _, (Cycle.mem_events h _).mp⟩⟩

/-! ## Steps (R460) -/

/-- Settles O55: a step is a wait, or the step of an event. -/
theorem everyStepHasANextState : Obligations.EveryStepHasANextState := by
  intro s
  obtain ⟨l, k, -, ⟨-, e⟩ | ⟨x, -, e⟩⟩ := step_cases s
  · exact ⟨_, e⟩
  · rw [e]
    exact runEvent_next x _

/-! ## The sender (R484, R537) -/

theorem onArx_of_not_rejected {s : State} {tok : Word}
    (h : ¬ (s.tx.state ≠ .sending ∨ (s.cfg.ackCheck = true ∧ tok ≠ s.tx.ack))) : onArx tok s = s.accept := by
  obtain ⟨hs, ha⟩ := not_or.mp h
  rw [onArx, if_neg hs, if_neg ha]

/-- What the sender at a TICK or a token neither reads nor changes: the receiver, the codec, their memories and ATX. -/
structure OutsideSender where
  rx : RxUnit
  ck : CkUnit
  atx : List Word
  ckBuf : Memory
  rxSegbuf : Memory
  rxMem : Memory

def State.outsideSender (s : State) : OutsideSender :=
  { rx := s.rx, ck := s.ck, atx := s.atx, ckBuf := s.mem.ckBuf, rxSegbuf := s.mem.rxSegbuf, rxMem := s.mem.rxMem }

/-- The state s with v outside its sender. -/
def OutsideSender.put (v : OutsideSender) (s : State) : State :=
  { s with
    rx := v.rx, ck := v.ck, atx := v.atx
    mem := { s.mem with ckBuf := v.ckBuf, rxSegbuf := v.rxSegbuf, rxMem := v.rxMem } }

@[simp] theorem outsideSender_put (v : OutsideSender) (s : State) : (v.put s).outsideSender = v := rfl

@[simp] theorem put_outsideSender (s : State) : s.outsideSender.put s = s := rfl

section
variable (v : OutsideSender) (s : State)

theorem checkTimeout_put : (v.put s).checkTimeout = v.put s.checkTimeout := by
  have ht : (v.put s).timedOut = s.timedOut := rfl
  have hr : (v.put s).retriesUsedUp = s.retriesUsedUp := rfl
  rw [State.checkTimeout, State.checkTimeout, ht, hr]
  cases s.timedOut
  · rfl
  · cases s.retriesUsedUp <;> rfl

theorem onTick_put : onTick (v.put s) = v.put (onTick s) := by
  by_cases h : s.tx.state = .sending
  · have hput : (v.put s).tx.state = .sending := h
    rw [onTick, onTick, if_pos h, if_pos hput]
    exact checkTimeout_put v s.advanceNow.advanceElapsed
  · rw [onTick_of_not_sending h, onTick_of_not_sending (s := v.put s) h]
    rfl

theorem accept_put : (v.put s).accept = v.put s.accept := by
  have hl : (v.put s).lastSegment = s.lastSegment := rfl
  rw [State.accept, State.accept, hl]
  cases s.lastSegment <;> rfl

/-- A token is either ignored or accepted, and what decides it stands in the sender and the configuration (R311). -/
theorem onArx_put (tok : Word) : onArx tok (v.put s) = v.put (onArx tok s) := by
  by_cases h : s.tx.state ≠ .sending ∨ (s.cfg.ackCheck = true ∧ tok ≠ s.tx.ack)
  · rw [onArx_of_rejected h, onArx_of_rejected (s := v.put s) h]
  · rw [onArx_of_not_rejected h, onArx_of_not_rejected (s := v.put s) h]
    exact accept_put v s

end

/-- An operation that commutes with every change outside the sender makes none. -/
theorem outsideSender_eq_of_commutes {f : State → State} (h : ∀ v s, f (OutsideSender.put v s) = v.put (f s)) (s : State) :
    (f s).outsideSender = s.outsideSender := by
  have hs := h s.outsideSender s
  rw [put_outsideSender] at hs
  rw [hs, outsideSender_put]

theorem txMem_onTick (s : State) : (onTick s).mem.txMem = s.mem.txMem := by
  by_cases h : s.tx.state = .sending
  · obtain ⟨-, e⟩ | ⟨-, -, e⟩ | ⟨-, -, e⟩ := onTick_cases s h <;> rw [e] <;> rfl
  · rw [onTick_of_not_sending h]
    rfl

theorem txMem_onArx (tok : Word) (s : State) : (onArx tok s).mem.txMem = s.mem.txMem := by
  obtain ⟨-, e⟩ | ⟨-, -, e⟩ | ⟨-, -, e⟩ := onArx_cases tok s <;> rw [e] <;> rfl

/-- A TICK and a token are steps of the sender: they commute with every change outside it, and leave the input in TX_MEM. -/
theorem exists_sender_step {e : Event} (h : e = .tick ∨ ∃ tok, e = .arx tok) :
    ∃ f : State → State, (∀ s, runEvent e s = .next (f s)) ∧ (∀ (v : OutsideSender) s, f (v.put s) = v.put (f s)) ∧
      ∀ s, (f s).mem.txMem = s.mem.txMem := by
  obtain rfl | ⟨tok, rfl⟩ := h
  · exact ⟨onTick, fun _ => rfl, onTick_put, txMem_onTick⟩
  · exact ⟨onArx tok, fun _ => rfl, fun v s => onArx_put v s tok, txMem_onArx tok⟩

/-- Settles O56: the step commutes with the change that the statement makes, and so makes none itself. -/
theorem senderIgnoresReceiverAndCodec : Obligations.SenderIgnoresReceiverAndCodec := by
  intro s e x k a m1 m2 m3 he
  obtain ⟨f, hstep, hput, htxMem⟩ := exists_sender_step he
  have hframe := outsideSender_eq_of_commutes hput s
  refine ⟨f s, hstep s, congrArg OutsideSender.rx hframe, congrArg OutsideSender.ck hframe, congrArg OutsideSender.atx hframe,
    congrArg OutsideSender.ckBuf hframe, congrArg OutsideSender.rxSegbuf hframe, congrArg OutsideSender.rxMem hframe,
    htxMem s, (hstep _).trans (congrArg Host.Outcome.next ?_)⟩
  exact hput { rx := x, ck := k, atx := a, ckBuf := m1, rxSegbuf := m2, rxMem := m3 } s

/-! ## The receiver (R484, R537) -/

/-- What the receiver neither reads nor changes at a datagram: the sender, the estimator, the configuration, the codec, their
memories and DTX. -/
structure OutsideReceiver where
  tx : TxUnit
  rtt : RttUnit
  cfg : SessionConfig
  ck : CkUnit
  dtx : List Datagram
  ckBuf : Memory
  txSegbuf : Memory
  txMem : Memory

def State.outsideReceiver (s : State) : OutsideReceiver :=
  { tx := s.tx, rtt := s.rtt, cfg := s.cfg, ck := s.ck, dtx := s.dtx, ckBuf := s.mem.ckBuf, txSegbuf := s.mem.txSegbuf,
    txMem := s.mem.txMem }

/-- The state s with v outside its receiver. -/
def OutsideReceiver.put (v : OutsideReceiver) (s : State) : State :=
  { s with
    tx := v.tx, rtt := v.rtt, cfg := v.cfg, ck := v.ck, dtx := v.dtx
    mem := { s.mem with ckBuf := v.ckBuf, txSegbuf := v.txSegbuf, txMem := v.txMem } }

@[simp] theorem outsideReceiver_put (v : OutsideReceiver) (s : State) : (v.put s).outsideReceiver = v := rfl

@[simp] theorem put_outsideReceiver (s : State) : s.outsideReceiver.put s = s := rfl

/-- What the checks decide, and what each outcome does, is the same whatever stands outside the receiver (R376, R382 to R388). -/
theorem checkAndDeliver_put (v : OutsideReceiver) (s : State) (d : Datagram) :
    (v.put s).checkAndDeliver d = v.put (s.checkAndDeliver d) := by
  cases hv : verify d with
  | false =>
    rw [checkAndDeliver_of_corrupt hv, checkAndDeliver_of_corrupt hv]
    rfl
  | true =>
    obtain hp | hp := Nat.lt_or_ge 556 (trueLength d)
    · rw [checkAndDeliver_of_too_long hv hp, checkAndDeliver_of_too_long hv hp]
      rfl
    · obtain hb | hb := Nat.lt_or_ge s.build.rxMemSize (s.rx.bytes.toNat + trueLength d)
      · rw [checkAndDeliver_of_overflow hv hp hb, checkAndDeliver_of_overflow (s := v.put s) hv hp hb]
        rfl
      · rw [checkAndDeliver_of_fits hv hp hb, checkAndDeliver_of_fits (s := v.put s) hv hp hb]
        cases (decodeSeg d).fin <;> rfl

theorem onDrx_put (v : OutsideReceiver) (s : State) (d : Datagram) : onDrx d (v.put s) = v.put (onDrx d s) := by
  by_cases hs : s.rx.state = .receiving
  · by_cases hd : d.length = 576
    · rw [onDrx_of_length hs hd, onDrx_of_length (s := v.put s) hs hd]
      exact checkAndDeliver_put v (s.writeBytes .rxSegbuf 0 d) d
    · rw [onDrx_of_length_ne hs hd, onDrx_of_length_ne (s := v.put s) hs hd]
      rfl
  · rw [onDrx_of_not_receiving hs, onDrx_of_not_receiving (s := v.put s) hs]

/-- A step that commutes with every change outside the receiver makes none. -/
theorem outsideReceiver_onDrx (d : Datagram) (s : State) : (onDrx d s).outsideReceiver = s.outsideReceiver := by
  have hs := onDrx_put s.outsideReceiver s d
  rw [put_outsideReceiver] at hs
  rw [hs, outsideReceiver_put]

/-- Settles O57: the step commutes with the change that the statement makes, and so makes none itself. -/
theorem receiverIgnoresSenderAndCodec : Obligations.ReceiverIgnoresSenderAndCodec := by
  intro s d x r c k o m1 m2 m3
  have hframe := outsideReceiver_onDrx d s
  refine ⟨onDrx d s, rfl, congrArg OutsideReceiver.tx hframe, congrArg OutsideReceiver.rtt hframe,
    congrArg OutsideReceiver.cfg hframe, congrArg OutsideReceiver.ck hframe, congrArg OutsideReceiver.dtx hframe,
    congrArg OutsideReceiver.ckBuf hframe, congrArg OutsideReceiver.txSegbuf hframe, congrArg OutsideReceiver.txMem hframe,
    congrArg Host.Outcome.next ?_⟩
  exact onDrx_put { tx := x, rtt := r, cfg := c, ck := k, dtx := o, ckBuf := m1, txSegbuf := m2, txMem := m3 } s d

end Sys2Proof.Machine
end
